-- ==== Sys2Proof/Word.lean ====
section
/-! DEFINITION. The words of the JSPECT engine: bytes of the input stream, command words, binary64
values held as their 64 bits (R101), and the complex value `(re, im)` (R102). Arithmetic on binary64 is
in Machine/Float64.lean. -/

namespace Sys2Proof

/-- One byte of the input stream (R71). -/
abbrev Byte := BitVec 8

/-- A 32-bit command or step-history word (R110, R114). -/
abbrev Word := BitVec 32

/-- A binary64 value as its bits: bit 63 sign, 62:52 exponent, 51:0 fraction (R101). -/
abbrev F64 := BitVec 64

/-- A complex value, `re` first (R102). Named `Cplx` to stay apart from the library's complex numbers. -/
structure Cplx where
  re : F64
  im : F64
  deriving DecidableEq, Repr, Inhabited

/-- `+0.0`. -/
def fZero : F64 := 0x0000000000000000#64
/-- `1.0`. -/
def fOne : F64 := 0x3FF0000000000000#64
/-- `(+0.0, +0.0)`. -/
def cZero : Cplx := { re := fZero, im := fZero }
/-- `(1.0, +0.0)`, the twiddle at the top of a sub-block (R166). -/
def cOne : Cplx := { re := fOne, im := fZero }

end Sys2Proof
end

