-- ==== Sys2Proof/Syntax.lean ====
section
/-! DEFINITION. The operations of the operation map (R115), one constructor per row of
opcode_table.json, and the inputs the block's environment gives it, after the script statements of
R120. -/

namespace Sys2Proof

/-- The 34 operations of R115. None has an operand field: operands come from state and are named in
each rule (R114). -/
inductive Instr where
  | start | stop | expire | join
  | cmul | cadd | csub | cdivs | cabs | carg
  | fft | bitrev | twid | bfly | bfpass
  | rbwr | rbrd | rbwin | signal | await
  | ppoll | pfetch | pdecode | pstep | peos | pfail | pexit
  | cpoll | cstep | window | acc | cchunk | ccol | cexit
  deriving DecidableEq, Repr, Inhabited

/-- Every operation, in the table's order. -/
def Instr.all : List Instr :=
  [.start, .stop, .expire, .join, .cmul, .cadd, .csub, .cdivs, .cabs, .carg,
   .fft, .bitrev, .twid, .bfly, .bfpass, .rbwr, .rbrd, .rbwin, .signal, .await,
   .ppoll, .pfetch, .pdecode, .pstep, .peos, .pfail, .pexit,
   .cpoll, .cstep, .window, .acc, .cchunk, .ccol, .cexit]

/-- What the stream does after the bytes it has delivered so far (R201): more may come, it has ended,
or the read fails. -/
inductive SrcTail where
  | more | eos | fail
  deriving DecidableEq, Repr, Inhabited

/-- One input to the block: which step is taken next, or what HOST, OBS or SRC does (R8, R120). -/
inductive Input where
  /-- The step history's next word (R114): that operation is the next step taken. -/
  | op (w : Word)
  /-- HOST writes `v` to the register at `addr` (R29, R43); CMD among them (R42). -/
  | hostWrite (addr : Nat) (v : BitVec 64)
  /-- HOST reads the register at `addr` (R43). -/
  | hostRead (addr : Nat)
  /-- HOST or OBS reads entry `bin` of column `col` (R88). -/
  | readColumn (col bin : Nat)
  /-- An open stream is attached, positioned at its first frame (R313). -/
  | srcAttach (bytes : List Byte) (tail : SrcTail)
  /-- No stream is open any more (R120 `SRC CLOSED`). -/
  | srcDetach
  /-- SRC delivers further bytes (R50). -/
  | srcDeliver (bytes : List Byte)
  /-- SRC's stream ends or fails after what was delivered (R201). -/
  | srcEnd (tail : SrcTail)
  deriving DecidableEq, Repr, Inhabited

end Sys2Proof
end

