-- ==== Sys2Proof/Config.lean ====
section
/-! DEFINITION. What an instance of the block fixes (R5, R7) and the values the spec leaves free. -/

namespace Sys2Proof

/-- What ACC accumulates (R7, R226). -/
inductive AccMode where
  | complex | magnitude
  deriving DecidableEq, Repr, Inhabited

/-- The base of `NUM.log` (R7, R228). -/
inductive LogBase where
  | ten | e
  deriving DecidableEq, Repr, Inhabited

/-- The parameters of one instance (R5, R7). CHUNK is held as its logarithm less one and LOOKAHEAD less
one, so that `CHUNK = 2^m` with `m >= 1` and `LOOKAHEAD >= 1` hold of every value: an instance that
breaks R5 does not exist (U14; log entry 4). -/
structure Params where
  log2ChunkPred : Nat
  lookaheadPred : Nat
  accMode : AccMode
  logBase : LogBase
  /-- The stop patience window in seconds; no rule reads it (R7, D26). -/
  patience : Nat
  /-- HOST_BASE (R29, D31). -/
  hostBase : Nat
  deriving DecidableEq, Repr, Inhabited

/-- `LOG2CHUNK` (R5). -/
def Params.log2Chunk (p : Params) : Nat := p.log2ChunkPred + 1
/-- `CHUNK`, the FFT window length (R5). -/
def Params.chunk (p : Params) : Nat := 2 ^ p.log2Chunk
/-- `LOOKAHEAD` (R5). -/
def Params.lookahead (p : Params) : Nat := p.lookaheadPred + 1
/-- `BATCH = CHUNK * LOOKAHEAD` (R5). -/
def Params.batch (p : Params) : Nat := p.chunk * p.lookahead
/-- `RINGLEN = CHUNK * (2*LOOKAHEAD + 1)` (R5). -/
def Params.ringLen (p : Params) : Nat := p.chunk * (2 * p.lookahead + 1)

/-- The hardware's values: CHUNK 1024, LOOKAHEAD 32 (R5), ACC_MODE complex, LOG_BASE 10, PATIENCE 30
(R7), HOST_BASE 0 (DESIGN CHOICE, log entry 14). -/
def Params.hardware : Params :=
  { log2ChunkPred := 9, lookaheadPred := 31, accMode := .complex, logBase := .ten,
    patience := 30, hostBase := 0 }

/-- Free: `NUM.cos` (R148, U1) before its stated limits are applied in Machine/Num.lean. -/
opaque Config.freeCos : F64 → F64
/-- Free: `NUM.sin` (U2). -/
opaque Config.freeSin : F64 → F64
/-- Free: `NUM.hypot` (U3). -/
opaque Config.freeHypot : F64 → F64 → F64
/-- Free: `NUM.atan2`, first argument `y` (U4). -/
opaque Config.freeAtan2 : F64 → F64 → F64
/-- Free: `NUM.log` to the given base (U5). -/
opaque Config.freeLog : LogBase → F64 → F64
/-- Free: sign and payload of the NaN an operation produces (U6), by operation and operands. -/
opaque Config.freeNaN : Nat → F64 → F64 → F64
/-- Free: which of two values the order does not separate counts as the least or greatest (log entry 7). -/
opaque Config.freeTie : F64 → F64 → Bool
/-- Free: what the environment does next where the state lists no input (R8, U22; log entry 1). -/
opaque Config.freeInput : Nat → Input

end Sys2Proof
end

