-- ==== Sys2Proof/Decode.lean ====
section
/-! DEFINITION. Reading and writing the 32-bit words of the operation map: formats CMD (R110) and EVT
(R114), the numbers of R115. A word is written whole and has no byte order (R72). -/

namespace Sys2Proof

/-- The 8-bit operation number of a word, bits 31:24 (R110). -/
def wordOpcode (w : Word) : BitVec 8 := w.extractLsb' 24 8

/-- The `arg` field of a word, bits 23:0 (R110). -/
def wordArg (w : Word) : BitVec 24 := w.extractLsb' 0 24

/-- The `arg` field is reserved and must be 0 (R110, R114). -/
def argIsZero (w : Word) : Bool := wordArg w == 0#24

/-- Why a word is no operation. -/
inductive Reject where
  /-- `arg` is reserved and must be 0 (R110, R113). -/
  | argNotZero
  /-- The number is not in the table of R115: unassigned. -/
  | unassigned (opcode : Nat)
  deriving DecidableEq, Repr

/-- The operation a word stands for (R110, R114, R115). -/
def decode (w : Word) : Except Reject Instr :=
  if argIsZero w then
    match (wordOpcode w).toNat with
    | 0x01 => .ok .start
    | 0x02 => .ok .stop
    | 0x08 => .ok .expire
    | 0x09 => .ok .join
    | 0x10 => .ok .cmul
    | 0x11 => .ok .cadd
    | 0x12 => .ok .csub
    | 0x13 => .ok .cdivs
    | 0x14 => .ok .cabs
    | 0x15 => .ok .carg
    | 0x20 => .ok .fft
    | 0x21 => .ok .bitrev
    | 0x22 => .ok .twid
    | 0x23 => .ok .bfly
    | 0x24 => .ok .bfpass
    | 0x30 => .ok .rbwr
    | 0x31 => .ok .rbrd
    | 0x32 => .ok .rbwin
    | 0x33 => .ok .signal
    | 0x34 => .ok .await
    | 0x40 => .ok .ppoll
    | 0x41 => .ok .pfetch
    | 0x42 => .ok .pdecode
    | 0x43 => .ok .pstep
    | 0x44 => .ok .peos
    | 0x45 => .ok .pfail
    | 0x46 => .ok .pexit
    | 0x50 => .ok .cpoll
    | 0x51 => .ok .cstep
    | 0x52 => .ok .window
    | 0x53 => .ok .acc
    | 0x54 => .ok .cchunk
    | 0x55 => .ok .ccol
    | 0x56 => .ok .cexit
    | n => .error (.unassigned n)
  else .error .argNotZero

/-- The operation number (R115). -/
def opcode : Instr → BitVec 8
  | .start => 0x01#8
  | .stop => 0x02#8
  | .expire => 0x08#8
  | .join => 0x09#8
  | .cmul => 0x10#8
  | .cadd => 0x11#8
  | .csub => 0x12#8
  | .cdivs => 0x13#8
  | .cabs => 0x14#8
  | .carg => 0x15#8
  | .fft => 0x20#8
  | .bitrev => 0x21#8
  | .twid => 0x22#8
  | .bfly => 0x23#8
  | .bfpass => 0x24#8
  | .rbwr => 0x30#8
  | .rbrd => 0x31#8
  | .rbwin => 0x32#8
  | .signal => 0x33#8
  | .await => 0x34#8
  | .ppoll => 0x40#8
  | .pfetch => 0x41#8
  | .pdecode => 0x42#8
  | .pstep => 0x43#8
  | .peos => 0x44#8
  | .pfail => 0x45#8
  | .pexit => 0x46#8
  | .cpoll => 0x50#8
  | .cstep => 0x51#8
  | .window => 0x52#8
  | .acc => 0x53#8
  | .cchunk => 0x54#8
  | .ccol => 0x55#8
  | .cexit => 0x56#8

/-- The word of an operation: its number in bits 31:24, `arg = 0` (R110, R114). -/
def encode (i : Instr) : Word := opcode i ++ 0#24

/-- The command a word written to CMD stands for: START and STOP only (R111 to R113). -/
def commandOf (w : Word) : Option Instr :=
  if w = 0x01000000#32 then some .start
  else if w = 0x02000000#32 then some .stop
  else none

/-- The word of an instruction of `nbits` table bits `w`: the bits above are 0. -/
def tableWord (nbits w : Nat) : Word := BitVec.ofNat 32 (w % 2 ^ nbits)

/-- What the decoder reads from an instruction whose bits are `w`. -/
def decodeTableWord (nbits w : Nat) : Option Instr :=
  match decode (tableWord nbits w) with
  | .ok i => some i
  | .error _ => none

end Sys2Proof
end

