-- ==== Sys2Proof/Machine/State.lean ====
section
/-! DEFINITION. The state of the block: everything of R20 to R54, the environment's side of the
interface, and the model's own fields. Grouped by the agent that owns a field (R290). -/

namespace Sys2Proof.Machine

/-- `sstate` (R26). -/
inductive SState where
  | idle | run | stopping | aborting
  deriving DecidableEq, Repr, Inhabited

/-- `pstate` (R26). -/
inductive PState where
  | idle | run | sigWait | sigWaitLast | sigWaitEnd | exit
  deriving DecidableEq, Repr, Inhabited

/-- `cstate` (R26). -/
inductive CState where
  | idle | await | drain | exit
  deriving DecidableEq, Repr, Inhabited

/-- `pexit` (R38). -/
inductive PExit where
  | none | eos | stopped | aborted | failed
  deriving DecidableEq, Repr, Inhabited

/-- `cexit` (R38). -/
inductive CExit where
  | none | sentinel | stopped | aborted | complete
  deriving DecidableEq, Repr, Inhabited

/-- The sticky event flags (R39). -/
structure Flags where
  flat : Bool
  decodeFail : Bool
  badCmd : Bool
  busy : Bool
  cfgErr : Bool
  expired : Bool
  deriving DecidableEq, Repr, Inhabited

/-- The configuration registers c2 to c5 (R32 to R35). -/
structure HostRegs where
  pixcols : BitVec 32
  total : BitVec 64
  rate : BitVec 32
  layout : BitVec 32
  deriving DecidableEq, Repr, Inhabited

/-- The configuration latched by START (R44). -/
structure Cfg where
  pixcols : BitVec 32
  total : BitVec 64
  rate : BitVec 32
  bps : BitVec 3
  be : Bool
  nch : BitVec 8
  bpf : BitVec 16
  deriving DecidableEq, Repr, Inhabited

/-- An answer of SRC to a PFETCH (R201). -/
inductive Answer where
  | frame (f : List Byte)
  | eos
  | fail
  deriving DecidableEq, Repr, Inhabited

/-- What SUP writes (R290): its state, the `running` flag, the abort latches (R37, R52), the patience
timer (R292), and `spc` (x7). -/
structure Supervisor where
  sstate : SState
  running : Bool
  pabort : Bool
  cabort : Bool
  timerArmed : Bool
  spc : Nat
  deriving DecidableEq, Repr, Inhabited

/-- The handoff slot (R36, R37, R52 a). -/
structure Handoff where
  position : Int
  workerDone : Bool
  deriving DecidableEq, Repr, Inhabited

/-- How far a PSTEP that is taken part by part has come (R116, R205; log entry 3): none is under way, or
PDECODE, or RBWR too, has been taken. -/
inductive ProdPart where
  | none | decoded | written
  deriving DecidableEq, Repr, Inhabited

/-- How far a CSTEP that is taken part by part has come (R116, R222, R225; log entry 3). -/
inductive ConsPart where
  /-- No CSTEP is under way. -/
  | none
  /-- RBRD is taken; the counter and the boundary tests are due. -/
  | taken
  /-- A CCHUNK is due. -/
  | chunk
  /-- RBWIN is taken; WINDOW is due. -/
  | gathered
  /-- WINDOW is taken; FFT is due or under way. -/
  | windowed
  /-- FFT is taken; ACC is due. -/
  | transformed
  /-- ACC is taken; the chunk counter is due. -/
  | accumulated
  /-- A CCOL is due or under way. -/
  | column
  deriving DecidableEq, Repr, Inhabited

/-- How far an FFT that is taken part by part has come (R116, R164, R166, R167; log entry 3). -/
inductive FftPhase where
  /-- No FFT is under way. -/
  | idle
  /-- The pass of length `l` is due; with `l` beyond CHUNK all passes are done. -/
  | pass
  /-- The butterfly of index `j` in the block at `k` is due; with `k = CHUNK` all are done. -/
  | ready
  /-- The butterfly's CMUL is taken. -/
  | product
  /-- The butterfly's CADD is taken. -/
  | sum
  /-- The butterfly's CSUB is taken. -/
  | difference
  /-- The butterfly is done; the CMUL that advances the twiddle is due. -/
  | advance
  deriving DecidableEq, Repr, Inhabited

/-- What PROD owns (R75, R290), the answer of its last fetch (log entry 11), the sample of PDECODE, and how
far a PSTEP under way has come (log entry 3). -/
structure Producer where
  pstate : PState
  pexit : PExit
  wr : Nat
  run : Nat
  ppend : Int
  nframes : Nat
  fetched : Option Answer
  smp : F64
  part : ProdPart
  deriving DecidableEq, Repr, Inhabited

/-- CONS's control registers (R75, R290), and how far a CSTEP under way has come (log entry 3). -/
structure Consumer where
  cstate : CState
  cexit : CExit
  rd : Nat
  lim : Int
  prev : Int
  cnt : Nat
  nchunk : Nat
  ncol : Nat
  part : ConsPart
  deriving DecidableEq, Repr, Inhabited

/-- CONS's data path: RBRD's result (R181), RBWIN's result (R182), `buf` (R45), `acc` (R46), the
column scratch (R48), and, in a CCOL taken part by part, the bin that is due and whether its CDIVS is taken
(R116; log entry 3). -/
structure Spectral where
  idx : Nat
  smp : F64
  win : List F64
  buf : List Cplx
  acc : List Cplx
  v : List F64
  vmin : F64
  vmax : F64
  range : F64
  out : List F64
  bin : Nat
  divided : Bool
  deriving DecidableEq, Repr, Inhabited

/-- The temporaries of the complex unit: operands `a`, `b`, `s`, results `r` and `f`. R140 names `buf`,
`acc` and temporaries as what the unit works on; that these are five, and which operation leaves what in
them, is the model's (DESIGN CHOICE, log entry 29). -/
structure ComplexUnit where
  a : Cplx
  b : Cplx
  s : F64
  r : Cplx
  f : F64
  deriving DecidableEq, Repr, Inhabited

/-- The temporaries of the FFT engine (R28), and how far an FFT under way has come (log entry 3). -/
structure FftTemps where
  l : Nat
  k : Nat
  j : Nat
  w : Cplx
  wl : Cplx
  phase : FftPhase
  deriving DecidableEq, Repr, Inhabited

/-- How many pulses each event line has given (R280; log entry 16). -/
structure EventLines where
  evColumn : Nat
  evFail : Nat
  deriving DecidableEq, Repr, Inhabited

/-- The data of the last host read (log entry 14). -/
structure HostPort where
  data : BitVec 64
  deriving DecidableEq, Repr, Inhabited

/-- The input stream (R50): whether one is open, the bytes delivered and not yet consumed, and what
follows them. -/
structure Source where
  isOpen : Bool
  bytes : List Byte
  tail : SrcTail
  deriving DecidableEq, Repr, Inhabited

/-- The ring (R49) as a sparse list of (slot, value) pairs: slots strictly rising, none listed that
reads `+0.0`, which is what an unlisted slot reads (log entry 8). -/
abbrev Memory := List (Nat × F64)

/-- The whole machine. -/
structure State where
  hw : Params
  regs : HostRegs
  cfg : Cfg
  sup : Supervisor
  hand : Handoff
  prod : Producer
  cons : Consumer
  spectral : Spectral
  cu : ComplexUnit
  fft : FftTemps
  ring : Memory
  /-- The column log (R51). -/
  cols : List (List F64)
  flags : Flags
  lines : EventLines
  port : HostPort
  src : Source
  /-- What the environment does next, first entry first (the model's own; log entry 1). -/
  inputs : List Input
  /-- The index of the next free input (the model's own; log entry 1). -/
  tick : Nat
  deriving DecidableEq, Repr, Inhabited

/-- The two worker agents (R8). -/
inductive Agent where
  | prod | cons
  deriving DecidableEq, Repr, Inhabited

/-- The events of R271: E1 to E8 in order, E7 and E8 at the agent that observes them, and E8's record at
EXPIRE. -/
inductive Event where
  | openFailure
  | decodeFailure
  | degenerateNormalisation
  | badCommand
  | busy
  | configError
  | stop (a : Agent)
  | abort (a : Agent)
  | expiry
  deriving DecidableEq, Repr, Inhabited

/-- Why the machine stops with a fault. -/
inductive Fault where
  /-- Raised by the host port (Machine/HostPort.lean) for a host access at an address that is no
  register of R29. Safe: the model stops where a platform's bus may answer anything. -/
  | noSuchRegister (addr : Nat)
  /-- Raised by the host port for a read of a column entry at or beyond `ncol`, or of a bin at or beyond
  CHUNK, which a reader must not make (R88, R315). Safe: the model stops. -/
  | columnNotEmitted (col bin : Nat)
  deriving DecidableEq, Repr

/-- Why a step has no meaning. -/
inductive Refusal where
  /-- Raised by exec for an operation that has no meaning yet; no arm raises it. Safe. -/
  | notModelled (mnemonic : String)
  /-- Raised by step for a step-history word that is no operation of R115. Safe. -/
  | notAnOperation (w : Word)
  deriving DecidableEq, Repr

/-- The outcome of a step of this machine. -/
abbrev Result := Host.Outcome State Fault Refusal

/-- No flag set. -/
def Flags.clear : Flags := { flat := false, decodeFail := false, badCmd := false, busy := false, cfgErr := false, expired := false }

/-- Power-on reset (R53, R310) of an instance with parameters `p`. The values the spec leaves open
("any value") are those of log entries 8 and 9. -/
def State.powerOn (p : Params) : State :=
  { hw := p
    regs := { pixcols := 0#32, total := 0#64, rate := 0#32, layout := 0#32 }
    cfg := { pixcols := 0#32, total := 0#64, rate := 0#32, bps := 0#3, be := false, nch := 0#8, bpf := 0#16 }
    sup := { sstate := .idle, running := false, pabort := false, cabort := false, timerArmed := false, spc := 0 }
    hand := { position := 0, workerDone := false }
    prod := { pstate := .idle, pexit := .none, wr := 0, run := 0, ppend := 0, nframes := 0, fetched := .none, smp := fZero
              part := .none }
    cons := { cstate := .idle, cexit := .none, rd := 0, lim := 0, prev := 0, cnt := 0, nchunk := 0, ncol := 0
              part := .none }
    spectral :=
      { idx := 0, smp := fZero, win := List.replicate p.chunk fZero
        buf := List.replicate p.chunk cZero, acc := List.replicate p.chunk cZero
        v := List.replicate p.chunk fZero, vmin := fZero, vmax := fZero, range := fZero
        out := List.replicate p.chunk fZero, bin := 0, divided := false }
    cu := { a := cZero, b := cZero, s := fZero, r := cZero, f := fZero }
    fft := { l := 2, k := 0, j := 0, w := cOne, wl := cZero, phase := .idle }
    ring := []
    cols := []
    flags := Flags.clear
    lines := { evColumn := 0, evFail := 0 }
    port := { data := 0#64 }
    src := { isOpen := false, bytes := [], tail := .more }
    inputs := []
    tick := 0 }

/-- The hardware right after power-on reset. -/
def State.reset : State := State.powerOn Params.hardware

end Sys2Proof.Machine
end

