-- ==== Sys2Proof/Machine/Flags.lean ====
section
/-! DEFINITION. The status words (R36 to R41) as functions of the state, and the setting of sticky flags
(R39). -/

namespace Sys2Proof.Machine

/-- `sstate` as bits (R26). -/
def SState.code : SState → Nat
  | .idle => 0 | .run => 1 | .stopping => 2 | .aborting => 3

/-- `pstate` as bits (R26). -/
def PState.code : PState → Nat
  | .idle => 0 | .run => 1 | .sigWait => 2 | .sigWaitLast => 3 | .sigWaitEnd => 4 | .exit => 5

/-- `cstate` as bits (R26). -/
def CState.code : CState → Nat
  | .idle => 0 | .await => 1 | .drain => 2 | .exit => 3

/-- `pexit` as bits (R38). -/
def PExit.code : PExit → Nat
  | .none => 0 | .eos => 1 | .stopped => 2 | .aborted => 3 | .failed => 4

/-- `cexit` as bits (R38). -/
def CExit.code : CExit → Nat
  | .none => 0 | .sentinel => 1 | .stopped => 2 | .aborted => 3 | .complete => 4

/-- c8 STATUS (R38). -/
def statusWord (s : State) : BitVec 32 :=
  BitVec.ofNat 32 (s.sup.sstate.code + s.prod.pstate.code * 2 ^ 4 + s.cons.cstate.code * 2 ^ 8
    + s.prod.pexit.code * 2 ^ 12 + s.cons.cexit.code * 2 ^ 16)

/-- c7 HSTAT (R37). -/
def hstatWord (s : State) : BitVec 32 :=
  BitVec.ofNat 32 (s.hand.workerDone.toNat + s.sup.running.toNat * 2 + s.sup.pabort.toNat * 4
    + s.sup.cabort.toNat * 8)

/-- c9 FLAGS (R39). -/
def flagsWord (f : Flags) : BitVec 32 :=
  BitVec.ofNat 32 (f.flat.toNat + f.decodeFail.toNat * 2 + f.badCmd.toNat * 4 + f.busy.toNat * 8
    + f.cfgErr.toNat * 16 + f.expired.toNat * 32)

/-- c6 POSITION (R36): `-1` reads `0xFFFFFFFF`. -/
def positionWord (s : State) : BitVec 32 := BitVec.ofInt 32 s.hand.position

/-- The sticky flags after an event (R39, R271). -/
def Flags.after (f : Flags) : Event → Flags
  | .openFailure => { f with decodeFail := true }
  | .decodeFailure => { f with decodeFail := true }
  | .degenerateNormalisation => { f with flat := true }
  | .badCommand => { f with badCmd := true }
  | .busy => { f with busy := true }
  | .configError => { f with cfgErr := true }
  | .stop _ => f
  | .abort _ => f
  | .expiry => { f with expired := true }

end Sys2Proof.Machine
end

