-- ==== Sys2Proof/Machine/Float64.lean ====
section
/-! DEFINITION. IEEE-754 binary64 arithmetic (R101, R147): `+ - * /` rounded once to nearest, ties to
even, gradual underflow, no flags. A finite value is an integer number of units of 2^-1074, so sums and
products are computed exactly on integers and narrowed by one function, `fRound`. The rounding itself is
the standard's (PRESUMED, log entry 21). The operations are irreducible, so that no proof evaluates one by
accident; `unfold` opens it. -/

namespace Sys2Proof.Machine

/-! ## The constants the rules name -/

/-- `2.0`. -/
def fTwo : F64 := 0x4000000000000000#64
/-- `10.0`, the factor of the dB map (R228). -/
def fTen : F64 := 0x4024000000000000#64
/-- `PI = 3.141592653589793` (R163). -/
def fPi : F64 := 0x400921FB54442D18#64
/-- `pi/2`, the value U4 gives for `atan2(y, 0)` with `y > 0`. -/
def fHalfPi : F64 := 0x3FF921FB54442D18#64
/-- `+inf`. -/
def fInf : F64 := 0x7FF0000000000000#64
/-- `-inf`. -/
def fNegInf : F64 := 0xFFF0000000000000#64
/-- `0.53836`, rounded to binary64 (R47). -/
def fHamA : F64 := 0x3FE13A3EC02F2F98#64
/-- `0.46164`, rounded to binary64 (R47). -/
def fHamB : F64 := 0x3FDD8B827FA1A0CF#64

/-! ## Reading the bits (R101) -/

/-- The bits below the sign. -/
def fMag (x : F64) : Nat := x.toNat % 2 ^ 63

/-- The sign bit. -/
def fSign (x : F64) : Bool := 2 ^ 63 ≤ x.toNat

/-- `fMag` of an infinity. -/
def infMag : Nat := 2047 * 2 ^ 52

/-- Exponent 2047, fraction not 0 (R101). -/
def fIsNaN (x : F64) : Bool := infMag < fMag x
/-- Exponent 2047, fraction 0 (R101). -/
def fIsInf (x : F64) : Bool := fMag x == infMag
/-- Zero, subnormal or normal (R101). -/
def fIsFinite (x : F64) : Bool := fMag x < infMag
/-- `+0.0` or `-0.0`. -/
def fIsZero (x : F64) : Bool := fMag x == 0

/-- The value with sign `sg` and the bits `mag` below it. -/
def fPack (sg : Bool) (mag : Nat) : F64 := BitVec.ofNat 64 ((if sg then 2 ^ 63 else 0) + mag)

/-! ## Exact values and rounding (R147) -/

/-- The magnitude of a finite value in units of 2^-1074 (R101: bias 1023; exponent 0 is subnormal). -/
def fScaled (x : F64) : Nat :=
  if fMag x / 2 ^ 52 = 0 then fMag x % 2 ^ 52
  else (2 ^ 52 + fMag x % 2 ^ 52) * 2 ^ (fMag x / 2 ^ 52 - 1)

/-- A finite value in units of 2^-1074. -/
def fFixed (x : F64) : Int := if fSign x then -(fScaled x : Int) else (fScaled x : Int)

/-- `1.0` in units of 2^-1074. -/
def fUnit : Nat := 2 ^ 1074

/-- The integer nearest to `num / den`, ties to even (R147). -/
def roundEven (num den : Nat) : Nat :=
  if 2 * (num % den) < den then num / den
  else if den < 2 * (num % den) then num / den + 1
  else num / den + (num / den) % 2

/-- How many bits a magnitude of `t` whole units has beyond the 53 of a significand. -/
def excessBits (t : Nat) : Nat := Nat.log2 t - 52

/-- The magnitude bits of the binary64 nearest to `num / den` units: the significand is rounded in steps
of `2^k` units, and `2^52 * k + significand` is the exponent and fraction of R101 side by side, also
where the rounding carries into the next binade. Too large a value is an infinity. -/
def roundMag (num den : Nat) : Nat :=
  min infMag (2 ^ 52 * excessBits (num / den) + roundEven num (den * 2 ^ excessBits (num / den)))

/-- The binary64 of sign `sg` nearest to `num / den` units of 2^-1074. -/
def fRound (sg : Bool) (num den : Nat) : F64 := fPack sg (roundMag num den)

/-! ## The operations -/

/-- The NaN an operation produces: its sign and payload are free (R101, U6; log entry 6). -/
def fNaN (op : Nat) (x y : F64) : F64 :=
  fPack (fSign (Config.freeNaN op x y))
    (infMag + (if fMag (Config.freeNaN op x y) % 2 ^ 52 = 0 then 1
               else fMag (Config.freeNaN op x y) % 2 ^ 52))

/-- `-x`: the sign bit flipped, nothing else. -/
def fNeg (x : F64) : F64 := fPack (!fSign x) (fMag x)

/-- The sum of two values, neither of them a NaN; `op`, `x0`, `y0` name the operation for its NaN. -/
def fSum (op : Nat) (x0 y0 x y : F64) : F64 :=
  if fIsInf x then
    if fIsInf y && (fSign x != fSign y) then fNaN op x0 y0 else x
  else if fIsInf y then y
  else if fFixed x + fFixed y = 0 then fPack (fSign x && fSign y) 0
  else fRound (fFixed x + fFixed y < 0) (fFixed x + fFixed y).natAbs 1

/-- Binary64 `x + y` (R147). -/
@[irreducible] def fAdd (x y : F64) : F64 :=
  if fIsNaN x || fIsNaN y then fNaN 0 x y else fSum 0 x y x y

/-- Binary64 `x - y` (R147). -/
@[irreducible] def fSub (x y : F64) : F64 :=
  if fIsNaN x || fIsNaN y then fNaN 1 x y else fSum 1 x y x (fNeg y)

/-- Binary64 `x * y` (R147). -/
@[irreducible] def fMul (x y : F64) : F64 :=
  if fIsNaN x || fIsNaN y then fNaN 2 x y
  else if fIsInf x || fIsInf y then
    if fIsZero x || fIsZero y then fNaN 2 x y else fPack (fSign x != fSign y) infMag
  else fRound (fSign x != fSign y) (fScaled x * fScaled y) fUnit

/-- Binary64 `x / y` (R147); division by zero gives `±inf` or NaN (R144). -/
@[irreducible] def fDiv (x y : F64) : F64 :=
  if fIsNaN x || fIsNaN y then fNaN 3 x y
  else if fIsInf x then
    if fIsInf y then fNaN 3 x y else fPack (fSign x != fSign y) infMag
  else if fIsInf y then fPack (fSign x != fSign y) 0
  else if fIsZero y then
    if fIsZero x then fNaN 3 x y else fPack (fSign x != fSign y) infMag
  else fRound (fSign x != fSign y) (fUnit * fScaled x) (fScaled y)

/-- `f64(n)` (R12): exact for every integer a rule converts (R13), else rounded. -/
@[irreducible] def fOfInt (n : Int) : F64 := fRound (n < 0) (fUnit * n.natAbs) 1

/-- `f64(n)` of a natural number. -/
def fOfNat (n : Nat) : F64 := fOfInt (n : Int)

/-! ## Order -/

/-- The order of the values that are not NaN: `-inf` least, the two zeros equal. -/
def fKey (x : F64) : Int := if fSign x then -(fMag x : Int) else (fMag x : Int)

/-- `x < y`; false where either is a NaN. -/
def fLt (x y : F64) : Bool := !fIsNaN x && !fIsNaN y && decide (fKey x < fKey y)

/-- `x <= y`; false where either is a NaN. -/
def fLe (x y : F64) : Bool := !fIsNaN x && !fIsNaN y && decide (fKey x ≤ fKey y)

/-- The lesser of two values; between equal zeros (and where one is a NaN, which no reachable column
holds, R228) the choice is free (log entry 7). -/
@[irreducible] def fMin (x y : F64) : F64 :=
  if fLt x y then x else if fLt y x then y else if x = y then x
  else if Config.freeTie x y then x else y

/-- The greater of two values, chosen as in `fMin`. -/
@[irreducible] def fMax (x y : F64) : F64 :=
  if fLt y x then x else if fLt x y then y else if x = y then x
  else if Config.freeTie x y then x else y

end Sys2Proof.Machine
end

