-- ==== Sys2Proof/Machine/Num.lean ====
section
/-! DEFINITION. The numerics record NUM (R148): each function is the free one of Config within the limits
U1 to U5 state for it. A free function that keeps its limits is used as it stands, so every admissible NUM
is covered; outside its limits a fallback inside them is taken (log entry 5). -/

namespace Sys2Proof.Machine

/-- In `[-1, 1]` and no NaN. -/
def inUnitBall (x : F64) : Bool := fLe (fNeg fOne) x && fLe x fOne

/-- `NUM.cos` (U1): in `[-1, 1]`, `cos(+0.0) = 1.0`. -/
@[irreducible] def numCos (x : F64) : F64 :=
  if x = fZero then fOne else if inUnitBall (Config.freeCos x) then Config.freeCos x else fZero

/-- `NUM.sin` (U2): in `[-1, 1]`. -/
@[irreducible] def numSin (x : F64) : F64 :=
  if inUnitBall (Config.freeSin x) then Config.freeSin x else fZero

/-- The true norm of two finite values exceeds the largest finite binary64, `(2^53 - 1) * 2^2045`
units of 2^-1074. -/
def normOverflows (x y : F64) : Bool :=
  ((2 ^ 53 - 1) * 2 ^ 2045) ^ 2 < fScaled x ^ 2 + fScaled y ^ 2

/-- What `hypot` may answer for finite arguments not both zero: a finite value that is not negative, or
`+inf` where the true norm is too large (U3, R145). -/
def hypotAllowed (x y r : F64) : Bool :=
  (fIsFinite r && !fSign r) || (r == fInf && normOverflows x y)

/-- `NUM.hypot` (U3, R145, D36). -/
@[irreducible] def numHypot (x y : F64) : F64 :=
  if fIsInf x || fIsInf y then fInf
  else if fIsNaN x || fIsNaN y then fNaN 4 x y
  else if fIsZero x && fIsZero y then fZero
  else if hypotAllowed x y (Config.freeHypot x y) then Config.freeHypot x y
  else fPack false (max (fMag x) (fMag y))

/-- `NUM.atan2(y, x)` (U4, D36): a NaN or in `[-pi, pi]`; `atan2(+0, x) = +0` for finite `x > 0`;
`atan2(y, ±0) = pi/2` for finite `y > 0`. -/
@[irreducible] def numAtan2 (y x : F64) : F64 :=
  if y = fZero ∧ fLt fZero x = true ∧ fIsFinite x = true then fZero
  else if fIsZero x = true ∧ fLt fZero y = true ∧ fIsFinite y = true then fHalfPi
  else if fIsNaN (Config.freeAtan2 y x) || fMag (Config.freeAtan2 y x) ≤ fMag fPi then Config.freeAtan2 y x
  else fZero

/-- `v` moved into `[a, b]`: itself where it lies there, the nearer bound elsewhere, `a` for a NaN. -/
def clampTo (a b v : F64) : F64 := if fLe a v then (if fLe v b then v else b) else a

/-- The value at `x` of the non-decreasing function that `f` fixes between `a` and `b` on the `2^k` bit
patterns from `lo` on: `f` at the middle, moved between the bounds, bounds the two halves. A function that
is non-decreasing between `a` and `b` is left as it is. -/
def risingAt (f : F64 → F64) (x : Nat) : Nat → Nat → F64 → F64 → F64
  | 0, lo, a, b => clampTo a b (f (BitVec.ofNat 64 lo))
  | k + 1, lo, a, b =>
    if x < lo + 2 ^ k then risingAt f x k lo a (clampTo a b (f (BitVec.ofNat 64 (lo + 2 ^ k))))
    else risingAt f x k (lo + 2 ^ k) (clampTo a b (f (BitVec.ofNat 64 (lo + 2 ^ k)))) b

/-- The largest finite value. -/
def fLargest : F64 := 0x7FEFFFFFFFFFFFFF#64

/-- `NUM.log(x)` to base `b` (U5): `log(+0.0) = -inf`, `log(1.0) = +0.0`, `log(+inf) = +inf`, a NaN gives a
NaN; finite and non-decreasing on finite `x > 0`. The patterns below `1.0` lie in the `2^62` from `+0.0` on,
those of the finite values from `1.0` on are the `2^62` from `1.0` on. Arguments below `+0.0` never occur
(U5) and are free. -/
@[irreducible] def numLog (b : LogBase) (x : F64) : F64 :=
  if fIsNaN x then fNaN 5 x x
  else if x = fZero then fNegInf
  else if x = fOne then fZero
  else if x = fInf then fInf
  else if fSign x then Config.freeLog b x
  else if fLt x fOne then risingAt (Config.freeLog b) x.toNat 62 0 (fNeg fLargest) fZero
  else risingAt (Config.freeLog b) x.toNat 62 fOne.toNat fZero fLargest

end Sys2Proof.Machine
end

