-- ==== Sys2Proof/Machine/Arith.lean ====
section
/-! DEFINITION. The pure functions of the data path: the complex unit (R141 to R146), the FFT engine
(R162 to R167), the window, the accumulator and the column (R224 to R229). Every function is total; a list
shorter than its rule asks for, which no reachable state holds, reads as zeros. -/

namespace Sys2Proof.Machine

/-! ## The complex unit -/

/-- CMUL: four products, one difference, one sum, in the order of R141. -/
def cMul (a b : Cplx) : Cplx :=
  { re := fSub (fMul a.re b.re) (fMul a.im b.im), im := fAdd (fMul a.re b.im) (fMul a.im b.re) }

/-- CADD (R142). -/
def cAdd (a b : Cplx) : Cplx := { re := fAdd a.re b.re, im := fAdd a.im b.im }

/-- CSUB (R143). -/
def cSub (a b : Cplx) : Cplx := { re := fSub a.re b.re, im := fSub a.im b.im }

/-- CDIVS: two divisions (R144). -/
def cDivs (a : Cplx) (s : F64) : Cplx := { re := fDiv a.re s, im := fDiv a.im s }

/-- CABS (R145). -/
def cAbs (a : Cplx) : F64 := numHypot a.re a.im

/-- CARG: the imaginary part first (R146). -/
def cArg (a : Cplx) : F64 := numAtan2 a.im a.re

/-! ## The FFT engine -/

/-- `rev_m(i)`: the low `m` bits of `i` read backwards (R162). -/
def revBits : Nat → Nat → Nat
  | 0, _ => 0
  | m + 1, i => i % 2 * 2 ^ m + revBits m (i / 2)

/-- Entry `i` of a buffer. -/
def cAt (a : List Cplx) (i : Nat) : Cplx := a.getD i cZero

/-- Entries `i` and `j` exchanged. -/
def swapAt (a : List Cplx) (i j : Nat) : List Cplx := (a.set i (cAt a j)).set j (cAt a i)

/-- One turn of BITREV's loop: each pair is exchanged once, where `i < rev(i)` (R162). -/
def bitrevStep (m : Nat) (a : List Cplx) (i : Nat) : List Cplx :=
  if i < revBits m i then swapAt a i (revBits m i) else a

/-- BITREV on a buffer of `2^m` entries (R162). -/
def bitrevBuf (m : Nat) (a : List Cplx) : List Cplx := (List.range (2 ^ m)).foldl (bitrevStep m) a

/-- TWID: the pass twiddle of length `l` (R163). -/
def twiddle (l : Nat) : Cplx :=
  { re := numCos (fDiv (fMul fTwo fPi) (fOfNat l)), im := fNeg (numSin (fDiv (fMul fTwo fPi) (fOfNat l))) }

/-- BFLY on entries `p` and `q` with the running twiddle `w` (R164). -/
def butterfly (a : List Cplx) (p q : Nat) (w : Cplx) : List Cplx :=
  (a.set p (cAdd (cAt a p) (cMul w (cAt a q)))).set q (cSub (cAt a p) (cMul w (cAt a q)))

/-- One turn of a sub-block's loop: the butterfly of index `j`, then the twiddle's advance (R166). -/
def blockStep (half k : Nat) (wl : Cplx) (st : Cplx × List Cplx) (j : Nat) : Cplx × List Cplx :=
  (cMul st.1 wl, butterfly st.2 (k + j) (k + j + half) st.1)

/-- The sub-block at base `k`: the twiddle restarts at `(1.0, +0.0)` (R166). -/
def passBlock (half : Nat) (wl : Cplx) (a : List Cplx) (k : Nat) : List Cplx :=
  ((List.range half).foldl (blockStep half k wl) (cOne, a)).2

/-- BFPASS for sub-transform length `l` on a buffer of `n` entries: bases `0, l, 2l, ..., n - l` (R166):
`n/2` butterflies, each with one advance of the twiddle, and one pass twiddle (R170). -/
def passBuf (n l : Nat) (a : List Cplx) : List Cplx :=
  (List.range (n / l)).foldl (fun b i => passBlock (l / 2) (twiddle l) b (i * l)) a

/-- FFT on a buffer of `2^m` entries: BITREV, then the `m` passes `l = 2, 4, ..., 2^m` (R167; R170:
the operations it is made of, counted, are `fftParts` of Safety.lean). -/
def fftBuf (m : Nat) (a : List Cplx) : List Cplx :=
  (List.range m).foldl (fun b p => passBuf (2 ^ m) (2 ^ (p + 1)) b) (bitrevBuf m a)

/-! ## Window, accumulator, column -/

/-- Entry `i` of the window table: `0.53836 - 0.46164 * NUM.cos(2*pi*i / CHUNK)` (R47; log entry 17). -/
def ham (p : Params) (i : Nat) : F64 :=
  fSub fHamA (fMul fHamB (numCos (fDiv (fMul (fMul fTwo fPi) (fOfNat i)) (fOfNat p.chunk))))

/-- WINDOW: lane by lane, the imaginary parts `+0.0` (R224). -/
def windowBuf (p : Params) (win : List F64) : List Cplx :=
  (List.range p.chunk).map fun i => { re := fMul (win.getD i fZero) (ham p i), im := fZero }

/-- One lane of ACC (R226). -/
def accLane (mode : AccMode) (x y : Cplx) : Cplx :=
  match mode with
  | .complex => cAdd x y
  | .magnitude => { re := fAdd x.re (cAbs y), im := fZero }

/-- ACC: one spectrum added, lane by lane (R226). -/
def accBuf (p : Params) (acc buf : List Cplx) : List Cplx :=
  (List.range p.chunk).map fun b => accLane p.accMode (cAt acc b) (cAt buf b)

/-- What CCOL takes for `CABS(m)` of a bin's mean `m`: CABS of it, which R228 says is `m.re` in
`ACC_MODE = magnitude` (log entry 5). -/
def meanMagnitude (mode : AccMode) (m : Cplx) : F64 :=
  match mode with
  | .complex => cAbs m
  | .magnitude => m.re

/-- The magnitude of the mean of each bin of a column (R228). -/
def columnMagnitudes (p : Params) (nchunk : Nat) (acc : List Cplx) : List F64 :=
  (List.range p.chunk).map fun b => meanMagnitude p.accMode (cDivs (cAt acc b) (fOfNat nchunk))

/-- The dB value of a magnitude: `/ CHUNK`, logarithm, `* 10`, in that order (R228), each rounded (R147; where the
product overflows: log entry 31). -/
def levelOf (p : Params) (m : F64) : F64 := fMul fTen (numLog p.logBase (fDiv m (fOfNat p.chunk)))

/-- CCOL part 1: the dB values of a column (R228). -/
def columnLevels (p : Params) (nchunk : Nat) (acc : List Cplx) : List F64 :=
  (columnMagnitudes p nchunk acc).map (levelOf p)

/-- The least value of a list (R229). -/
def leastOf : List F64 → F64
  | [] => fZero
  | x :: xs => xs.foldl fMin x

/-- The greatest value of a list (R229). -/
def greatestOf : List F64 → F64
  | [] => fZero
  | x :: xs => xs.foldl fMax x

/-- `range` is finite and `> 0`: the normal case of R229. -/
def rangeIsNormal (range : F64) : Bool := fIsFinite range && fLt fZero range

/-- CCOL part 2: the normalised column, all `+0.0` in the degenerate case (R229). -/
def normalise (v : List F64) (vmin range : F64) : List F64 :=
  v.map fun x => if rangeIsNormal range then fDiv (fSub x vmin) range else fZero

end Sys2Proof.Machine
end

