-- ==== Sys2Proof/Machine/Layout.lean ====
section
/-! DEFINITION. The fields of LAYOUT (R35), the configuration START accepts (R250), and the host's register
addresses (R29). -/

namespace Sys2Proof.Machine

/-- Field BPS of LAYOUT, bits 2:0 (R35). -/
def layoutBps (l : BitVec 32) : BitVec 3 := l.extractLsb' 0 3
/-- Field BE of LAYOUT, bit 3 (R35). -/
def layoutBe (l : BitVec 32) : Bool := l.getLsbD 3
/-- Field NCH of LAYOUT, bits 11:4 (R35). -/
def layoutNch (l : BitVec 32) : BitVec 8 := l.extractLsb' 4 8
/-- Field BPF of LAYOUT, bits 27:12 (R35). -/
def layoutBpf (l : BitVec 32) : BitVec 16 := l.extractLsb' 12 16
/-- Field CHX of LAYOUT, bits 31:28: reads 0 (R35). -/
def layoutChx (l : BitVec 32) : BitVec 4 := l.extractLsb' 28 4

/-- BPS is 1, 2, 3 or 4 (R35, D4). -/
def bpsLegal (l : BitVec 32) : Bool := 1 ≤ (layoutBps l).toNat && (layoutBps l).toNat ≤ 4
/-- NCH is 1 .. 255 (R35). -/
def nchLegal (l : BitVec 32) : Bool := (layoutNch l).toNat ≠ 0
/-- `BPS*NCH <= BPF` (R35). -/
def bpfLegal (l : BitVec 32) : Bool :=
  (layoutBps l).toNat * (layoutNch l).toNat ≤ (layoutBpf l).toNat
/-- `PIXCOLS >= 1` (R32). -/
def pixcolsLegal (p : BitVec 32) : Bool := p.toNat ≠ 0

/-- The configuration START accepts: none of R250's illegal cases. -/
def configLegal (pixcols layout : BitVec 32) : Bool :=
  pixcolsLegal pixcols && bpsLegal layout && nchLegal layout && bpfLegal layout

/-- The register index of a host address: `HOST_BASE + 8*i` with `i` in 0 .. 12 (R29). -/
def hostIndex (p : Params) (addr : Nat) : Option Nat :=
  if p.hostBase ≤ addr ∧ (addr - p.hostBase) % 8 = 0 ∧ (addr - p.hostBase) / 8 ≤ 12 then
    some ((addr - p.hostBase) / 8)
  else none

end Sys2Proof.Machine
end

