-- ==== Sys2Proof/Machine/Memory.lean ====
section
/-! DEFINITION. The ring (R49, R70) as a sparse list: reading and writing one slot, and its canonical
form. A slot is the unit of address; there is no byte view. -/

namespace Sys2Proof.Machine

/-- What a slot reads that is not listed: `+0.0`, START's fill (R53; log entry 8). -/
def ringFill : F64 := fZero

/-- The value of slot `a`. -/
def Memory.read : Memory → Nat → F64
  | [], _ => ringFill
  | (k, v) :: m, a => if k = a then v else Memory.read m a

/-- Slot `a` takes the value `x`; a slot that then reads the fill is not listed. -/
def Memory.write : Memory → Nat → F64 → Memory
  | [], a, x => if x = ringFill then [] else [(a, x)]
  | (k, v) :: m, a, x =>
    if a < k then (if x = ringFill then (k, v) :: m else (a, x) :: (k, v) :: m)
    else if a = k then (if x = ringFill then m else (a, x) :: m)
    else (k, v) :: Memory.write m a x

/-- The canonical form above slot `lo`: slots from `lo` on, strictly rising, no entry that reads as an
unlisted slot does. -/
def Memory.wfFrom : Nat → Memory → Bool
  | _, [] => true
  | lo, (k, v) :: m => decide (lo ≤ k) && decide (v ≠ ringFill) && Memory.wfFrom (k + 1) m

/-- The canonical form. -/
def Memory.wf (m : Memory) : Bool := Memory.wfFrom 0 m

/-- Every listed slot is below `n`. -/
def Memory.below (n : Nat) (m : Memory) : Bool := m.all fun e => decide (e.1 < n)

end Sys2Proof.Machine
end

