-- ==== Sys2Proof/Machine/Operands.lean ====
section
/-! DEFINITION. How the operations find their operands: the sample of a frame (R103, R104), ring cursors
and window slots (R70, R180 to R182), the operands of a butterfly and a pass (R161, R164, R166), the
answers of SRC (R201), and the configuration START latches (R44, R251). -/

namespace Sys2Proof.Machine

/-! ## Frames and samples -/

/-- The number whose base-256 digits are `f`, least significant first (R104). -/
def rawLittle : List Byte → Nat
  | [] => 0
  | b :: f => b.toNat + 256 * rawLittle f

/-- The sample field's bits (R104): little-endian as they stand, big-endian reversed. -/
def rawSample (be : Bool) (f : List Byte) : Nat := rawLittle (if be then f.reverse else f)

/-- `sext_N(v)` (R11). -/
def signExtend (n v : Nat) : Int :=
  if v % 2 ^ n < 2 ^ (n - 1) then ((v % 2 ^ n : Nat) : Int) else ((v % 2 ^ n : Nat) : Int) - 2 ^ n

/-- The signed sample of a frame: its first `bps` bytes, sign-extended at the full width (R103, R104). -/
def sampleInt (bps : Nat) (be : Bool) (f : List Byte) : Int :=
  signExtend (8 * bps) (rawSample be (f.take bps))

/-- PDECODE's result (R203). -/
def sampleOf (c : Cfg) (f : List Byte) : F64 := fOfInt (sampleInt c.bps.toNat c.be f)

/-- The `n` bytes of a number, least significant first. -/
def bytesLittle : Nat → Nat → List Byte
  | 0, _ => []
  | n + 1, v => BitVec.ofNat 8 v :: bytesLittle n (v / 256)

/-- The sample field that stands for the integer `x` (R104 read backwards; script `SRC SAMPLES`, R120). -/
def encodeSample (bps : Nat) (be : Bool) (x : Int) : List Byte :=
  if be then (bytesLittle bps (x % 2 ^ (8 * bps)).toNat).reverse
  else bytesLittle bps (x % 2 ^ (8 * bps)).toNat

/-- SRC's answer to a fetch of one frame of `bpf` bytes, and the stream after it (R201, R73): a whole
frame; else, by what follows the delivered bytes, no answer yet, the end (a trailing partial frame is
discarded) or a failure. -/
def Source.answer (src : Source) (bpf : Nat) : Option Answer × Source :=
  if bpf ≤ src.bytes.length then
    (some (.frame (src.bytes.take bpf)), { src with bytes := src.bytes.drop bpf })
  else match src.tail with
    | .more => (none, src)
    | .eos => (some .eos, { src with bytes := [] })
    | .fail => (some .fail, src)

/-! ## Ring cursors -/

/-- The next slot, wrapping (R180, R181). -/
def nextSlot (p : Params) (a : Nat) : Nat := (a + 1) % p.ringLen

/-- Slot `i` of the window that ends at slot `e`: `(e - (CHUNK-1) + i) mod RINGLEN` (R182), written
without a negative number. -/
def windowSlot (p : Params) (e i : Nat) : Nat := (e + (p.ringLen - (p.chunk - 1)) + i) % p.ringLen

/-- RBWIN's result, oldest sample first (R182). -/
def windowOf (p : Params) (m : Memory) (e : Nat) : List F64 :=
  (List.range p.chunk).map fun i => m.read (windowSlot p e i)

/-! ## Operands of the FFT engine -/

/-- `l` is a power of two with `2 <= l <= n` (R163, R166). -/
abbrev passLegal (n l : Nat) : Prop := l = 2 ^ Nat.log2 l ∧ 2 ≤ l ∧ l ≤ n

/-- Block base `k` and index `j` are those of a butterfly of pass `l` (R28, R166). -/
abbrev butterflyLegal (n l k j : Nat) : Prop := passLegal n l ∧ k % l = 0 ∧ k + l ≤ n ∧ j < l / 2

/-! ## Configuration -/

/-- The shadow copy START makes of c2 to c5 (R44). -/
def latchCfg (r : HostRegs) : Cfg :=
  { pixcols := r.pixcols, total := r.total, rate := r.rate
    bps := layoutBps r.layout, be := layoutBe r.layout
    nch := layoutNch r.layout, bpf := layoutBpf r.layout }

/-- `samplesPerColumn = ceil(TOTAL / PIXCOLS)`, exactly (R251). -/
def samplesPerColumn (total pixcols : Nat) : Nat := (total + pixcols - 1) / pixcols

end Sys2Proof.Machine
end

