-- ==== Sys2Proof/Machine/Ops.lean ====
section
/-! DEFINITION. The named operations on the state that the meanings share: one update per group of fields,
the next input, the entry of an event (R271), the conditions under which an agent may work, and the
operations that are parts of others (R116). -/

namespace Sys2Proof.Machine

/-! ## Updates, one per group of fields -/

def State.setRegs (s : State) (x : HostRegs) : State := { s with regs := x }
def State.setSup (s : State) (x : Supervisor) : State := { s with sup := x }
def State.setHand (s : State) (x : Handoff) : State := { s with hand := x }
def State.setProd (s : State) (x : Producer) : State := { s with prod := x }
def State.setCons (s : State) (x : Consumer) : State := { s with cons := x }
def State.setSpectral (s : State) (x : Spectral) : State := { s with spectral := x }
def State.setCu (s : State) (x : ComplexUnit) : State := { s with cu := x }
def State.setFft (s : State) (x : FftTemps) : State := { s with fft := x }
def State.setRing (s : State) (x : Memory) : State := { s with ring := x }
def State.setCols (s : State) (x : List (List F64)) : State := { s with cols := x }
def State.setFlags (s : State) (x : Flags) : State := { s with flags := x }
def State.setLines (s : State) (x : EventLines) : State := { s with lines := x }
def State.setPort (s : State) (x : HostPort) : State := { s with port := x }
def State.setSrc (s : State) (x : Source) : State := { s with src := x }
def State.setInputs (s : State) (x : List Input) : State := { s with inputs := x }
def State.setTick (s : State) (x : Nat) : State := { s with tick := x }

/-! ## The next input -/

/-- The input taken next and the state with it taken: the first listed one, or a free one where none is
listed (R8, U22; log entry 1). -/
def takeInput (s : State) : Input × State :=
  match s.inputs with
  | i :: rest => (i, s.setInputs rest)
  | [] => (Config.freeInput s.tick, s.setTick (s.tick + 1))

/-! ## Events (R271): the block's exceptions. Nothing is saved, no vector is taken, there is no return
operation (R283, R285). -/

/-- One more pulse of `EV_FAIL` where the event gives one: E1, E2 and E6 (R271, R280). -/
def EventLines.after (x : EventLines) : Event → EventLines
  | .openFailure => { x with evFail := x.evFail + 1 }
  | .decodeFailure => { x with evFail := x.evFail + 1 }
  | .configError => { x with evFail := x.evFail + 1 }
  | _ => x

/-- PROD's exit code and state after an event (R271): E2, and E7, E8 when PROD observes them. -/
def Producer.after (x : Producer) : Event → Producer
  | .decodeFailure => { x with pexit := .failed, pstate := .exit }
  | .stop .prod => { x with pexit := .stopped, pstate := .exit }
  | .abort .prod => { x with pexit := .aborted, pstate := .exit }
  | _ => x

/-- CONS's exit code and state after an event (R271): E7, E8 when CONS observes them. -/
def Consumer.after (x : Consumer) : Event → Consumer
  | .stop .cons => { x with cexit := .stopped, cstate := .exit }
  | .abort .cons => { x with cexit := .aborted, cstate := .exit }
  | _ => x

/-- `raise <Event>`: the records and changes of R271's table and nothing else. -/
def raise (e : Event) (s : State) : State :=
  (((s.setFlags (s.flags.after e)).setLines (s.lines.after e)).setProd (s.prod.after e)).setCons
    (s.cons.after e)

/-! ## When an agent may work -/

/-- PROD at a point where it may work: in its loop, and no cancellation to observe (R200, R282 b). -/
abbrev prodWorks (s : State) : Prop :=
  s.prod.pstate = .run ∧ s.sup.running = true ∧ s.sup.pabort = false

/-- PROD in one of the three SIGNAL waits (R185). -/
abbrev prodWaits (s : State) : Prop :=
  s.prod.pstate = .sigWait ∨ s.prod.pstate = .sigWaitLast ∨ s.prod.pstate = .sigWaitEnd

/-- A cancellation PROD observes (R209). -/
abbrev prodCancelled (s : State) : Prop := s.sup.pabort = true ∨ s.sup.running = false

/-- CONS at a point where it may consume: draining, and no cancellation to observe (R220, R282 b). -/
abbrev consWorks (s : State) : Prop :=
  s.cons.cstate = .drain ∧ s.sup.running = true ∧ s.sup.cabort = false

/-- A cancellation CONS observes (R231). -/
abbrev consCancelled (s : State) : Prop := s.sup.cabort = true ∨ s.sup.running = false

/-- PROD may work, and a PSTEP taken part by part has come as far as `p` (R78, R205; log entry 3). -/
abbrev prodAt (s : State) (p : ProdPart) : Prop := prodWorks s ∧ s.prod.part = p

/-- CONS may work, and a CSTEP taken part by part has come as far as `p` (R78, R222; log entry 3). -/
abbrev consAt (s : State) (p : ConsPart) : Prop := consWorks s ∧ s.cons.part = p

/-- A PSTEP taken part by part comes as far as `p`. -/
def State.prodTo (s : State) (p : ProdPart) : State := s.setProd { s.prod with part := p }

/-- A CSTEP taken part by part comes as far as `p`. -/
def State.consTo (s : State) (p : ConsPart) : State := s.setCons { s.cons with part := p }

/-- The step is taken where its condition holds; elsewhere it is no step of the machine and nothing
changes (R14, R27, R281; log entry 2). -/
def stepIf (c : Prop) [Decidable c] (t s : State) : Result := .next (if c then t else s)

/-- PROD leaves its loop: ABORTED if its latch is set, else STOPPED (R186, R209). -/
def opProdCancel (s : State) : State :=
  if s.sup.pabort = true then raise (.abort .prod) s else raise (.stop .prod) s

/-- CONS leaves its loop: ABORTED if its latch is set, else STOPPED (R189, R231). -/
def opConsCancel (s : State) : State :=
  if s.sup.cabort = true then raise (.abort .cons) s else raise (.stop .cons) s

/-! ## Ring access -/

/-- RBWR: the sample to slot `wr`, the cursor on (R180). -/
def opRbwr (s : State) : State :=
  (s.setRing (s.ring.write s.prod.wr s.prod.smp)).setProd { s.prod with wr := nextSlot s.hw s.prod.wr }

/-- RBRD: the slot consumed and its value, the cursor on (R181). -/
def opRbrd (s : State) : State :=
  (s.setSpectral { s.spectral with idx := s.cons.rd, smp := s.ring.read s.cons.rd }).setCons
    { s.cons with rd := nextSlot s.hw s.cons.rd }

/-- RBWIN: the CHUNK samples that end at slot `idx` (R182). -/
def opRbwin (s : State) : State :=
  s.setSpectral { s.spectral with win := windowOf s.hw s.ring s.spectral.idx }

/-! ## Handoff -/

/-- SIGNAL completion: publish, clear `workerDone`, and go on by the wait state (R185). -/
def opSignalComplete (s : State) : State :=
  match s.prod.pstate with
  | .sigWait =>
    (s.setHand { position := s.prod.ppend, workerDone := false }).setProd { s.prod with pstate := .run }
  | .sigWaitLast =>
    (s.setHand { position := s.prod.ppend, workerDone := false }).setProd
      { s.prod with ppend := -1, pstate := .sigWaitEnd }
  | .sigWaitEnd =>
    (s.setHand { position := s.prod.ppend, workerDone := false }).setProd
      { s.prod with pexit := .eos, pstate := .exit }
  | _ => s

/-- AWAIT entry: the previous handoff is marked done (R187). -/
def opAwaitEnter (s : State) : State :=
  (s.setHand { s.hand with workerDone := true }).setCons
    { s.cons with prev := s.cons.lim, cstate := .await }

/-- AWAIT completion: the new watermark, or the exit on the sentinel (R188). -/
def opAwaitComplete (s : State) : State :=
  if s.hand.position = -1 then s.setCons { s.cons with cexit := .sentinel, cstate := .exit }
  else s.setCons { s.cons with lim := s.hand.position, cstate := .drain }

/-! ## Producer -/

/-- PFETCH: SRC's answer, where there is one (R201; log entry 11). -/
def opPfetch (s : State) : State :=
  match s.src.answer s.cfg.bpf.toNat with
  | (none, _) => s
  | (some a, src) => (s.setSrc src).setProd { s.prod with fetched := some a }

/-- PDECODE: the sample of the fetched frame (R203). -/
def opPdecode (s : State) : State :=
  match s.prod.fetched with
  | some (.frame f) => s.setProd { s.prod with smp := sampleOf s.cfg f }
  | _ => s

/-- The rest of PSTEP after RBWR: the frame is counted and used up, and a full batch asks for a
publication of the cursor (R205). -/
def opCountFrame (s : State) : State :=
  if s.prod.run + 1 = s.hw.batch then
    s.setProd { s.prod with nframes := s.prod.nframes + 1, run := 0, ppend := s.prod.wr,
                            pstate := .sigWait, fetched := none, part := .none }
  else
    s.setProd { s.prod with nframes := s.prod.nframes + 1, run := s.prod.run + 1, fetched := none
                            part := .none }

/-- What is left of a PSTEP under way (R205, R329); nothing where none is. -/
def opFinishProd (s : State) : State :=
  match s.prod.part with
  | .none => s
  | .decoded => opCountFrame (opRbwr s)
  | .written => opCountFrame s

/-- PSTEP: PDECODE, RBWR, the cadence test (R205, R116). -/
def opPstep (s : State) : State := opCountFrame (opRbwr (opPdecode s))

/-- PEOS: the leftover first where there is one, then the sentinel (R206). -/
def opPeos (s : State) : State :=
  if 0 < s.prod.run then
    s.setProd { s.prod with ppend := s.prod.wr, run := 0, pstate := .sigWaitLast, fetched := none }
  else
    s.setProd { s.prod with ppend := -1, pstate := .sigWaitEnd, fetched := none }

/-! ## The FFT engine and the complex unit: CONS's, inside CCHUNK and CCOL (R294) -/

/-- The FFT of a CCHUNK is due or under way, and has come as far as `p` (R225, R294; log entry 3). -/
abbrev engineAt (s : State) (p : FftPhase) : Prop := consAt s .windowed ∧ s.fft.phase = p

/-- CONS is at a CCHUNK or a CCOL, the only places where the complex unit is used (R294). -/
abbrev unitInUse (s : State) : Prop := consWorks s ∧ s.cons.part ≠ .none ∧ s.cons.part ≠ .taken

/-- An FFT taken part by part comes as far as `p`. -/
def State.fftTo (s : State) (p : FftPhase) : State := s.setFft { s.fft with phase := p }

/-- The operands `a` and `b` and the complex result `r` in the unit's temporaries (log entry 29). -/
def State.unitTo (s : State) (a b r : Cplx) : State := s.setCu { s.cu with a := a, b := b, r := r }

/-- Entry `p` of the butterfly due (R164, R166). -/
def bflyP (s : State) : Nat := s.fft.k + s.fft.j

/-- Entry `q = p + l/2` of the butterfly due (R164). -/
def bflyQ (s : State) : Nat := s.fft.k + s.fft.j + s.fft.l / 2

/-- The temporaries' block, index and twiddle are those of a butterfly of a pass (R28, R166). -/
abbrev bflyDue (s : State) : Prop := butterflyLegal s.hw.chunk s.fft.l s.fft.k s.fft.j

/-- FFT: `buf` in place (R167). -/
def opFft (s : State) : State :=
  s.setSpectral { s.spectral with buf := fftBuf s.hw.log2Chunk s.spectral.buf }

/-- The FFT is done: ACC is due (R225). -/
def opFftDone (s : State) : State := (s.fftTo .idle).consTo .transformed

/-- BITREV of `buf` (R162); then the pass of length 2 is due (R167; log entry 30). -/
def opBitrev (s : State) : State :=
  (s.setSpectral { s.spectral with buf := bitrevBuf s.hw.log2Chunk s.spectral.buf }).setFft
    { s.fft with l := 2, phase := .pass }

/-- TWID of the length `l` (R163); then the first butterfly of the pass is due, with `w = (1.0, +0.0)` (R166;
log entry 30). -/
def opTwid (s : State) : State :=
  s.setFft { s.fft with wl := twiddle s.fft.l, k := 0, j := 0, w := cOne, phase := .ready }

/-- The end of BFPASS: on to the next length (R167; log entry 30). -/
def opNextPass (s : State) : State := s.setFft { s.fft with l := 2 * s.fft.l, phase := .pass }

/-- BFPASS: the pass of length `l` in place (R166). -/
def opBfpass (s : State) : State :=
  opNextPass (s.setSpectral { s.spectral with buf := passBuf s.hw.chunk s.fft.l s.spectral.buf })

/-- BFLY: entries `p` and `q` with the running twiddle `w` (R164). -/
def opBfly (s : State) : State :=
  (s.setSpectral { s.spectral with buf := butterfly s.spectral.buf (bflyP s) (bflyQ s) s.fft.w }).fftTo .advance

/-- The CMUL of a butterfly: the twiddle times entry `q` (R164). -/
def opBflyProduct (s : State) : State :=
  (s.unitTo s.fft.w (cAt s.spectral.buf (bflyQ s)) (cMul s.fft.w (cAt s.spectral.buf (bflyQ s)))).fftTo .product

/-- The CADD of a butterfly: entry `p` plus the product, to entry `p` (R164). -/
def opBflySum (s : State) : State :=
  ((s.unitTo (cAt s.spectral.buf (bflyP s)) s.cu.r (cAdd (cAt s.spectral.buf (bflyP s)) s.cu.r)).setSpectral
    { s.spectral with
      buf := s.spectral.buf.set (bflyP s) (cAdd (cAt s.spectral.buf (bflyP s)) s.cu.r) }).fftTo .sum

/-- The CSUB of a butterfly: the difference of its CADD's operands, to entry `q` (R164). -/
def opBflyDifference (s : State) : State :=
  ((s.unitTo s.cu.a s.cu.b (cSub s.cu.a s.cu.b)).setSpectral
    { s.spectral with buf := s.spectral.buf.set (bflyQ s) (cSub s.cu.a s.cu.b) }).fftTo .difference

/-- The twiddle `w` advanced, and on to the next index, or to the next block, where the twiddle starts
again at `(1.0, +0.0)` (R166; log entry 30). -/
def opNextButterfly (w : Cplx) (s : State) : State :=
  if s.fft.j + 1 < s.fft.l / 2 then s.setFft { s.fft with j := s.fft.j + 1, w := w, phase := .ready }
  else s.setFft { s.fft with j := 0, k := s.fft.k + s.fft.l, w := cOne, phase := .ready }

/-- The CMUL that advances the twiddle: `w` times `w_l` (R166). -/
def opAdvance (s : State) : State :=
  opNextButterfly (cMul s.fft.w s.fft.wl) (s.unitTo s.fft.w s.fft.wl (cMul s.fft.w s.fft.wl))

/-- The part of an FFT that is due, the coarsest one (R116, R166, R167). -/
def opFftPart (s : State) : State :=
  match s.fft.phase with
  | .idle => opFftDone (opFft s)
  | .pass => if s.hw.chunk < s.fft.l then opFftDone s else opBfpass s
  | .ready => if s.fft.k = s.hw.chunk then opNextPass s else opBfly s
  | .product => opBflySum s
  | .sum => opBflyDifference s
  | .difference => s.fftTo .advance
  | .advance => opAdvance s

/-! ## Consumer -/

/-- WINDOW: `buf` from `win` (R224), for a transform that has not begun. -/
def opWindow (s : State) : State :=
  (s.setSpectral { s.spectral with buf := windowBuf s.hw s.spectral.win }).fftTo .idle

/-- ACC: `acc` takes in `buf` (R226). -/
def opAcc (s : State) : State :=
  s.setSpectral { s.spectral with acc := accBuf s.hw s.spectral.acc s.spectral.buf }

/-- The end of CCHUNK: the chunk counter (R225). -/
def opCountChunk (s : State) : State := s.setCons { s.cons with nchunk := s.cons.nchunk + 1 }

/-- CCHUNK: RBWIN, WINDOW, FFT, ACC, the chunk counter (R225). -/
def opCchunk (s : State) : State := opCountChunk (opAcc (opFft (opWindow (opRbwin s))))

/-- The magnitudes CCOL goes on from: those its CDIVS and CABS, taken one by one, left in `v`, or all of
them computed here (R116, R228). -/
def magnitudesDue (p : Params) (nchunk : Nat) (x : Spectral) : List F64 :=
  if x.bin = p.chunk then x.v else columnMagnitudes p nchunk x.acc

/-- CCOL's computation from the magnitudes on: `v`, `vmin`, `vmax`, `range`, `out` (R228, R229). -/
def columnScratch (p : Params) (nchunk : Nat) (x : Spectral) : Spectral :=
  let v := (magnitudesDue p nchunk x).map (levelOf p)
  let vmin := leastOf v
  let vmax := greatestOf v
  let range := fSub vmax vmin
  { x with v := v, vmin := vmin, vmax := vmax, range := range, out := normalise v vmin range
           bin := 0, divided := false }

/-- CCOL parts 1 and 2: the scratch, and E3 where the range is not finite and positive (R228, R229). -/
def opColumn (s : State) : State :=
  let t := s.setSpectral (columnScratch s.hw s.cons.nchunk s.spectral)
  if rangeIsNormal t.spectral.range then t else raise .degenerateNormalisation t

/-- CCOL part 3, the emission: append, count, pulse `EV_COLUMN`, unless PIXCOLS is reached (R230). -/
def opEmit (s : State) : State :=
  if s.cons.ncol < s.cfg.pixcols.toNat then
    ((s.setCols (s.cols ++ [s.spectral.out])).setCons { s.cons with ncol := s.cons.ncol + 1 }).setLines
      { s.lines with evColumn := s.lines.evColumn + 1 }
  else s

/-- CCOL part 3, the end: `acc`, `cnt`, `nchunk` reset, and COMPLETE when PIXCOLS is reached (R227, R230);
the CSTEP is done. -/
def opCloseColumn (s : State) : State :=
  let t := s.setSpectral { s.spectral with acc := List.replicate s.hw.chunk cZero }
  if s.cons.ncol = s.cfg.pixcols.toNat then
    t.setCons { s.cons with cnt := 0, nchunk := 0, part := .none, cexit := .complete, cstate := .exit }
  else t.setCons { s.cons with cnt := 0, nchunk := 0, part := .none }

/-- CCOL (R227). -/
def opCcol (s : State) : State := opCloseColumn (opEmit (opColumn s))

/-- What is due after the sample that makes the counter `cnt`: the chunk operation at a chunk boundary, where the
counter is a multiple of CHUNK, or at a column boundary, where it equals `spc`, of a column that has no chunk
yet; else the column operation at a column boundary; else nothing (R222, R223). -/
def dueAfterSample (p : Params) (spc nchunk cnt : Nat) : ConsPart :=
  if cnt % p.chunk = 0 ∨ (cnt = spc ∧ nchunk = 0) then .chunk else if cnt = spc then .column else .none

/-- CSTEP steps 1 and 2: the counter, and the boundary tests (R222). -/
def opCountSample (s : State) : State :=
  s.setCons { s.cons with
    cnt := s.cons.cnt + 1, part := dueAfterSample s.hw s.sup.spc s.cons.nchunk (s.cons.cnt + 1) }

/-- After the chunk operation of a CSTEP: the column operation is due at a column boundary, else the CSTEP is
done (R222, R223 c). -/
def opChunkDone (s : State) : State := s.consTo (if s.cons.cnt = s.sup.spc then .column else .none)

/-- The CDIVS of a column's loop: the bin's accumulated value by `f64(nchunk)` (R228). -/
def opColumnDivide (s : State) : State :=
  (s.setCu { s.cu with
    a := cAt s.spectral.acc s.spectral.bin, s := fOfNat s.cons.nchunk
    r := cDivs (cAt s.spectral.acc s.spectral.bin) (fOfNat s.cons.nchunk) }).setSpectral
    { s.spectral with divided := true }

/-- The CABS of a column's loop, on the mean that CDIVS left; the mean's magnitude goes to `v` (R228), and the next
bin is due. -/
def opColumnMagnitude (s : State) : State :=
  (s.setCu { s.cu with a := s.cu.r, f := cAbs s.cu.r }).setSpectral
    { s.spectral with
      v := s.spectral.v.set s.spectral.bin (meanMagnitude s.hw.accMode s.cu.r), bin := s.spectral.bin + 1, divided := false }

/-- The part of a CCOL that is due, the coarsest one: CCOL at once where no bin or every bin is done, else the
CDIVS or the CABS of the next bin (R116, R227, R228). -/
def opColumnPart (s : State) : State :=
  if s.spectral.divided = true then opColumnMagnitude s
  else if s.spectral.bin = 0 ∨ s.spectral.bin = s.hw.chunk then opCcol s
  else opColumnDivide s

/-- The part of a CSTEP under way that is due, the coarsest one (R116, R222, R225); nothing where none is. -/
def opNextPart (s : State) : State :=
  match s.cons.part with
  | .none => s
  | .taken => opCountSample s
  | .chunk => opChunkDone (opCchunk s)
  | .gathered => (opWindow s).consTo .windowed
  | .windowed => opFftPart s
  | .transformed => (opAcc s).consTo .accumulated
  | .accumulated => opChunkDone (opCountChunk s)
  | .column => opColumnPart s

/-- The next `n` parts of a CSTEP under way. -/
def opNextParts : Nat → State → State
  | 0, s => s
  | n + 1, s => opNextParts n (opNextPart s)

/-- No CSTEP under way has more parts left than this: the butterflies of a pass with their advances, or the
CDIVS and CABS of a column, the other passes, and the parts after them. -/
def partsBound (p : Params) : Nat := 2 * p.chunk + p.log2Chunk + 16

/-- What is left of a CSTEP under way (R222, R329); nothing where none is. -/
def opFinishCons (s : State) : State :=
  match s.cons.part with
  | .none => s
  | _ => opNextParts (partsBound s.hw) s

/-- CSTEP: RBRD, then the counter and the boundary tests, then CCHUNK and CCOL where they are due (R222). -/
def opCstep (s : State) : State := opNextParts 3 ((opRbrd s).consTo .taken)

/-! ## Supervisor -/

/-- START, accepted: R251's assignments; the answer of an earlier fetch is dropped with the old context
(log entry 11). -/
def opStartAccepted (s : State) : State :=
  { s with
    cols := []
    flags := Flags.clear
    cfg := latchCfg s.regs
    sup := { sstate := .run, running := true, pabort := false, cabort := false, timerArmed := false
             spc := samplesPerColumn s.regs.total.toNat s.regs.pixcols.toNat }
    ring := []
    hand := { position := 0, workerDone := false }
    prod := { pstate := .run, pexit := .none, wr := 0, run := 0, ppend := 0, nframes := 0
              fetched := none, smp := s.prod.smp, part := .none }
    cons := { cstate := .drain, cexit := .none, rd := 0, lim := 0, prev := 0, cnt := 0, nchunk := 0
              ncol := 0, part := .none }
    spectral := { s.spectral with acc := List.replicate s.hw.chunk cZero } }

/-- Both agents' steps under way are finished: a STOP that comes during a step is ordered after it (R282 f,
R329; log entry 3). -/
def opFinish (s : State) : State := opFinishCons (opFinishProd s)

end Sys2Proof.Machine
end

