-- ==== Sys2Proof/Machine/ComplexUnit.lean ====
section
/-! DEFINITION. The complex unit: CMUL, CADD, CSUB, CDIVS, CABS, CARG (R140 to R146). CONS alone uses it, inside
CCHUNK and CCOL (R294). The operands are what R164 makes them in a butterfly, R166 in a twiddle's advance and
R228 in a column's loop (R116); R114 and R140 name no entry besides, and that they pass through the unit's
temporaries is the model's (DESIGN CHOICE, log entry 29). Each result is a function of the operands alone; no
flag is set and no operation blocks (R140). -/

namespace Sys2Proof.Machine

/-- CMUL (R141): of a butterfly, the twiddle and entry `q` (R164); of the twiddle's advance, the running and the
pass twiddle (R166). -/
def execCmul (s : State) : Result :=
  .next
    (if engineAt s .ready ∧ bflyDue s then opBflyProduct s
    else if engineAt s .advance then opAdvance s
    else s)

/-- CADD (R142): of a butterfly, entry `p` and the product, to entry `p` (R164). -/
def execCadd (s : State) : Result := stepIf (engineAt s .product) (opBflySum s) s

/-- CSUB (R143): of a butterfly, the operands of its CADD, to entry `q` (R164). -/
def execCsub (s : State) : Result := stepIf (engineAt s .sum) (opBflyDifference s) s

/-- CDIVS (R144): of a column's loop, the bin's accumulated value and `f64(nchunk)` (R228). -/
def execCdivs (s : State) : Result :=
  stepIf (consAt s .column ∧ s.spectral.bin < s.hw.chunk ∧ s.spectral.divided = false) (opColumnDivide s) s

/-- CABS (R145): of a column's loop, the mean that CDIVS left, `NUM.hypot` of its parts to the unit's real result, and
the bin's magnitude to `v` (R228; log entry 5). -/
def execCabs (s : State) : Result :=
  stepIf (consAt s .column ∧ s.spectral.bin < s.hw.chunk ∧ s.spectral.divided = true) (opColumnMagnitude s) s

/-- CARG (R146), where CONS may use the unit (R294). No operation of the pipeline uses it, so its operand is what
the unit's temporary holds, and its result reaches no other state (DESIGN CHOICE, log entry 29). -/
def execCarg (s : State) : Result := stepIf (unitInUse s) (s.setCu { s.cu with f := cArg s.cu.a }) s

end Sys2Proof.Machine
end

