-- ==== Sys2Proof/Machine/Consumer.lean ====
section
/-! DEFINITION. The analyzer/consumer: CPOLL, CSTEP, WINDOW, ACC, CCHUNK, CCOL, CEXIT (R220 to R234). CSTEP
and CCHUNK are taken whole, or part by part (R116): then each part is taken where it is due, in the order R222
and R225 give (R78), and the composite's own word does what no part of it does: CSTEP the counter and the
boundary tests, CCHUNK the chunk counter (log entry 3). -/

namespace Sys2Proof.Machine

/-- CPOLL: reads `running` and `cabort`, writes nothing (R220). -/
def execCpoll (s : State) : Result := .next s

/-- CSTEP: one sample, with the chunk and column operations it triggers (R222); after RBRD, the counter and the
boundary tests, what they find being due next (R116; log entry 3). -/
def execCstep (s : State) : Result :=
  .next
    (if consAt s .none ∧ (s.cons.rd : Int) ≠ s.cons.lim then opCstep s
    else if consAt s .taken then opCountSample s
    else s)

/-- WINDOW (R224), after RBWIN (R225). -/
def execWindow (s : State) : Result := stepIf (consAt s .gathered) ((opWindow s).consTo .windowed) s

/-- ACC (R226), after FFT (R225). -/
def execAcc (s : State) : Result := stepIf (consAt s .transformed) ((opAcc s).consTo .accumulated) s

/-- CCHUNK (R225), where the chunk operation is due; after RBWIN, WINDOW, FFT and ACC, the chunk counter (R116;
log entry 3). -/
def execCchunk (s : State) : Result :=
  .next
    (if consAt s .chunk then opChunkDone (opCchunk s)
    else if consAt s .accumulated then opChunkDone (opCountChunk s)
    else s)

/-- CCOL (R227), where the boundary tests of a CSTEP found `cnt = spc`: with `spc = 0` never (R22, R223 d,
R328). Its CDIVS and CABS are all still to do, or all taken (R116; log entry 3). -/
def execCcol (s : State) : Result :=
  stepIf (consAt s .column ∧ s.spectral.divided = false ∧
    (s.spectral.bin = 0 ∨ s.spectral.bin = s.hw.chunk)) (opCcol s) s

/-- CEXIT: draining or waiting, when a cancellation is observed (R231). -/
def execCexit (s : State) : Result :=
  stepIf ((s.cons.cstate = .drain ∨ s.cons.cstate = .await) ∧ consCancelled s) (opConsCancel s) s

end Sys2Proof.Machine
end

