-- ==== Sys2Proof/Machine/FftEngine.lean ====
section
/-! DEFINITION. The FFT engine: FFT, BITREV, TWID, BFLY, BFPASS (R160 to R168). The buffer is `buf`, its
length CHUNK. CONS alone uses the engine, inside CCHUNK, where the FFT is due after WINDOW (R160, R225, R294).
FFT and BFPASS are taken whole, or part by part (R116): then the temporaries `l`, `k`, `j`, `w`
of R28 are moved on by the part just taken, BITREV setting `l` to 2, TWID `k` and `j` to 0 and `w` to
`(1.0, +0.0)`, the twiddle's CMUL `j`, `k` and `w`, BFPASS `l`; the composite's own word, taken when its parts
are, ends it. Which word moves which temporary the spec leaves open (DESIGN CHOICE, log entry 30). -/

namespace Sys2Proof.Machine

/-- FFT (R167): the whole transform, where none has begun; the end of one whose passes are all taken. -/
def execFft (s : State) : Result :=
  .next
    (if engineAt s .idle then opFftDone (opFft s)
    else if engineAt s .pass ∧ s.hw.chunk < s.fft.l then opFftDone s
    else s)

/-- BITREV (R162), where no transform has begun. -/
def execBitrev (s : State) : Result := stepIf (engineAt s .idle) (opBitrev s) s

/-- TWID: `w_l` of the length `l` (R163), where that pass is due. -/
def execTwid (s : State) : Result := stepIf (engineAt s .pass ∧ passLegal s.hw.chunk s.fft.l) (opTwid s) s

/-- BFLY (R164), where that butterfly is due; the end of one whose CMUL, CADD and CSUB are taken. Then the
twiddle's advance is due (R166; log entry 30). -/
def execBfly (s : State) : Result :=
  .next
    (if engineAt s .ready ∧ bflyDue s then opBfly s
    else if engineAt s .difference then s.fftTo .advance
    else s)

/-- BFPASS: the whole pass of length `l` (R166), where it is due; the end of one whose butterflies are all
taken. Then the pass of twice the length is due (R167; log entry 30). -/
def execBfpass (s : State) : Result :=
  .next
    (if engineAt s .pass ∧ passLegal s.hw.chunk s.fft.l then opBfpass s
    else if engineAt s .ready ∧ s.fft.k = s.hw.chunk then opNextPass s
    else s)

end Sys2Proof.Machine
end

