-- ==== Sys2Proof/Machine/Producer.lean ====
section
/-! DEFINITION. The decoder/producer: PPOLL, PFETCH, PDECODE, PSTEP, PEOS, PFAIL, PEXIT (R200 to R210). -/

namespace Sys2Proof.Machine

/-- PPOLL: reads `running` and `pabort`, writes nothing; what it finds is the enabling of the other
operations of PROD (R200). -/
def execPpoll (s : State) : Result := .next s

/-- PFETCH: in PROD's loop, with no answer waiting to be used (R201). Without an answer PROD waits. -/
def execPfetch (s : State) : Result := stepIf (prodAt s .none ∧ s.prod.fetched = none) (opPfetch s) s

/-- Whether the fetch was answered by a frame. -/
def hasFrame (s : State) : Bool :=
  match s.prod.fetched with
  | some (.frame _) => true
  | _ => false

/-- PDECODE (R203), the first part of PSTEP (R205; log entry 3). -/
def execPdecode (s : State) : Result :=
  stepIf (prodAt s .none ∧ hasFrame s = true) ((opPdecode s).prodTo .decoded) s

/-- PSTEP: taken when PFETCH answered a frame (R205), and not once a cancellation can be observed (R282 b,
R329; log entry 11); after PDECODE and RBWR, what is left of it (R116; log entry 3). -/
def execPstep (s : State) : Result :=
  .next
    (if prodAt s .none ∧ hasFrame s = true then opPstep s
    else if prodAt s .written then opCountFrame s
    else s)

/-- PEOS: taken when PFETCH answered the end of the stream (R206). -/
def execPeos (s : State) : Result := stepIf (prodAt s .none ∧ s.prod.fetched = some .eos) (opPeos s) s

/-- PFAIL: taken when PFETCH answered a failure: E2 (R208, R273), and never once `running` is clear (R282 d). -/
def execPfail (s : State) : Result :=
  stepIf (prodAt s .none ∧ s.prod.fetched = some .fail) (raise .decodeFailure s) s

/-- PEXIT: in the loop or in a wait, when a cancellation is observed (R209). -/
def execPexit (s : State) : Result :=
  stepIf ((s.prod.pstate = .run ∨ prodWaits s) ∧ prodCancelled s) (opProdCancel s) s

end Sys2Proof.Machine
end

