-- ==== Sys2Proof/Machine/RingHandoff.lean ====
section
/-! DEFINITION. Ring access and the handoff: RBWR, RBRD, RBWIN, SIGNAL, AWAIT (R180 to R191). RBWR, RBRD
and RBWIN are parts of PSTEP, CSTEP and CCHUNK; each is taken where it is due in its composite (R78, R116; log
entry 3). -/

namespace Sys2Proof.Machine

/-- RBWR (R180), after PDECODE (R205). -/
def execRbwr (s : State) : Result := stepIf (prodAt s .decoded) ((opRbwr s).prodTo .written) s

/-- RBRD: enabled only when `rd != lim` (R181), and where no CSTEP is under way (R222). -/
def execRbrd (s : State) : Result :=
  stepIf (consAt s .none ∧ (s.cons.rd : Int) ≠ s.cons.lim) ((opRbrd s).consTo .taken) s

/-- RBWIN (R182), where the chunk operation is due; `idx` is that of the RBRD just done (R225). -/
def execRbwin (s : State) : Result := stepIf (consAt s .chunk) ((opRbwin s).consTo .gathered) s

/-- SIGNAL: in a wait state, cancellation first (R186), completion when the previous handoff is done
(R185), else PROD stays blocked and nothing changes (R184). -/
def execSignal (s : State) : Result :=
  .next
    (if prodWaits s then
      if prodCancelled s then opProdCancel s
      else if s.hand.workerDone = true then opSignalComplete s
      else s
    else s)

/-- AWAIT: entry when the batch is drained (R187); in the wait, cancellation first (R189), completion
when the position differs from `prev` (R188), else CONS stays blocked and nothing changes. -/
def execAwait (s : State) : Result :=
  .next
    (if s.cons.cstate = .await then
      if consCancelled s then opConsCancel s
      else if s.hand.position ≠ s.cons.prev then opAwaitComplete s
      else s
    else if consAt s .none ∧ (s.cons.rd : Int) = s.cons.lim then opAwaitEnter s
    else s)

end Sys2Proof.Machine
end

