-- ==== Sys2Proof/Machine/Supervisor.lean ====
section
/-! DEFINITION. The pipeline supervisor: START, STOP, EXPIRE, JOIN (R250 to R258). -/

namespace Sys2Proof.Machine

/-- START: the tests of R250 in their order, then R251. -/
def execStart (s : State) : Result :=
  .next
    (if s.sup.sstate ≠ .idle then raise .busy s
    else if configLegal s.regs.pixcols s.regs.layout = false then raise .configError s
    else if s.src.isOpen = false then raise .openFailure s
    else opStartAccepted s)

/-- STOP: clears `running` and arms the patience timer in S_RUN; no effect elsewhere (R252). A PSTEP or CSTEP
that is being taken part by part is finished first, since a STOP during a step is ordered after it (R282 f,
R329; log entry 3). -/
def execStop (s : State) : Result :=
  stepIf (s.sup.sstate = .run)
    ((opFinish s).setSup { s.sup with running := false, timerArmed := true, sstate := .stopping }) s

/-- An agent is live: not in its exit state (R254). -/
abbrev someAgentLive (s : State) : Prop := s.prod.pstate ≠ .exit ∨ s.cons.cstate ≠ .exit

/-- EXPIRE: the abort latch of each live agent, `FLAGS.EXPIRED`, S_ABORTING (R254). -/
def execExpire (s : State) : Result :=
  stepIf (s.sup.sstate = .stopping ∧ someAgentLive s)
    ((raise .expiry s).setSup
      { s.sup with
        pabort := if s.prod.pstate = .exit then s.sup.pabort else true
        cabort := if s.cons.cstate = .exit then s.sup.cabort else true
        sstate := .aborting }) s

/-- JOIN: both agents have exited; the timer is disarmed and the three state registers go idle (R255). -/
def execJoin (s : State) : Result :=
  stepIf ((s.sup.sstate = .stopping ∨ s.sup.sstate = .aborting) ∧ s.prod.pstate = .exit ∧
      s.cons.cstate = .exit)
    (((s.setSup { s.sup with timerArmed := false, sstate := .idle }).setProd
      { s.prod with pstate := .idle }).setCons { s.cons with cstate := .idle }) s

end Sys2Proof.Machine
end

