-- ==== Sys2Proof/Machine/Dispatch.lean ====
section
/-! DEFINITION. One arm per operation of R115. -/

namespace Sys2Proof.Machine

def exec (i : Instr) (s : State) : Host.Outcome State Fault Refusal :=
  match i with
  | .start => Sys2Proof.Machine.execStart s
  | .stop => Sys2Proof.Machine.execStop s
  | .expire => Sys2Proof.Machine.execExpire s
  | .join => Sys2Proof.Machine.execJoin s
  | .cmul => Sys2Proof.Machine.execCmul s
  | .cadd => Sys2Proof.Machine.execCadd s
  | .csub => Sys2Proof.Machine.execCsub s
  | .cdivs => Sys2Proof.Machine.execCdivs s
  | .cabs => Sys2Proof.Machine.execCabs s
  | .carg => Sys2Proof.Machine.execCarg s
  | .fft => Sys2Proof.Machine.execFft s
  | .bitrev => Sys2Proof.Machine.execBitrev s
  | .twid => Sys2Proof.Machine.execTwid s
  | .bfly => Sys2Proof.Machine.execBfly s
  | .bfpass => Sys2Proof.Machine.execBfpass s
  | .rbwr => Sys2Proof.Machine.execRbwr s
  | .rbrd => Sys2Proof.Machine.execRbrd s
  | .rbwin => Sys2Proof.Machine.execRbwin s
  | .signal => Sys2Proof.Machine.execSignal s
  | .await => Sys2Proof.Machine.execAwait s
  | .ppoll => Sys2Proof.Machine.execPpoll s
  | .pfetch => Sys2Proof.Machine.execPfetch s
  | .pdecode => Sys2Proof.Machine.execPdecode s
  | .pstep => Sys2Proof.Machine.execPstep s
  | .peos => Sys2Proof.Machine.execPeos s
  | .pfail => Sys2Proof.Machine.execPfail s
  | .pexit => Sys2Proof.Machine.execPexit s
  | .cpoll => Sys2Proof.Machine.execCpoll s
  | .cstep => Sys2Proof.Machine.execCstep s
  | .window => Sys2Proof.Machine.execWindow s
  | .acc => Sys2Proof.Machine.execAcc s
  | .cchunk => Sys2Proof.Machine.execCchunk s
  | .ccol => Sys2Proof.Machine.execCcol s
  | .cexit => Sys2Proof.Machine.execCexit s

end Sys2Proof.Machine
end

