-- ==== Sys2Proof/Machine/HostPort.lean ====
section
/-! DEFINITION. The block's edges: the host's reads and writes of c0 to c12 (R29 to R43), the reading of a
column (R88), and what SRC does (R50, R107, R201). -/

namespace Sys2Proof.Machine

/-- What a read of register `ci` returns (R30 to R42). -/
def readReg (s : State) : Nat → BitVec 64
  | 0 => BitVec.ofNat 64 (s.hw.chunk % 2 ^ 32)
  | 1 => BitVec.ofNat 64 (s.hw.lookahead % 2 ^ 32)
  | 2 => s.regs.pixcols.setWidth 64
  | 3 => s.regs.total
  | 4 => s.regs.rate.setWidth 64
  | 5 => s.regs.layout.setWidth 64
  | 6 => (positionWord s).setWidth 64
  | 7 => (hstatWord s).setWidth 64
  | 8 => (statusWord s).setWidth 64
  | 9 => (flagsWord s.flags).setWidth 64
  | 10 => BitVec.ofNat 64 (s.cons.ncol % 2 ^ 32)
  | 11 => BitVec.ofNat 64 s.sup.spc
  | _ => 0#64

/-- LAYOUT as it is stored: CHX reads 0, writes to it are ignored (R35). -/
def storeLayout (v : BitVec 32) : BitVec 32 := v &&& 0x0FFFFFFF#32

/-- The configuration registers after a write of `v` to `ci` (R32 to R35). -/
def writeConfig (r : HostRegs) (i : Nat) (v : BitVec 64) : HostRegs :=
  match i with
  | 2 => { r with pixcols := v.setWidth 32 }
  | 3 => { r with total := v }
  | 4 => { r with rate := v.setWidth 32 }
  | 5 => { r with layout := storeLayout (v.setWidth 32) }
  | _ => r

/-- A word written to CMD: START, STOP, or E4 BadCommand (R42, R110 to R113). -/
def writeCommand (w : Word) (s : State) : Result :=
  match commandOf w with
  | some .start => execStart s
  | some .stop => execStop s
  | _ => .next (raise .badCommand s)

/-- A write of `v` to register `ci`: a configuration register while idle, else E5 Busy; CMD; a read-only
register ignores it (R29, R43, U12). -/
def writeReg (i : Nat) (v : BitVec 64) (s : State) : Result :=
  if i = 12 then writeCommand (v.setWidth 32) s
  else if 2 ≤ i ∧ i ≤ 5 then
    .next (if s.sup.sstate = .idle then s.setRegs (writeConfig s.regs i v) else raise .busy s)
  else .next s

/-- HOST writes at an address (R29). -/
def hostWrite (addr : Nat) (v : BitVec 64) (s : State) : Result :=
  match hostIndex s.hw addr with
  | some i => writeReg i v s
  | none => .fault (.noSuchRegister addr)

/-- HOST reads at an address: no side effect in the block (R43). -/
def hostRead (addr : Nat) (s : State) : Result :=
  match hostIndex s.hw addr with
  | some i => .next (s.setPort { data := readReg s i })
  | none => .fault (.noSuchRegister addr)

/-- HOST or OBS reads one value of a column below `ncol` (R88). -/
def readColumn (col bin : Nat) (s : State) : Result :=
  if col < s.cons.ncol ∧ bin < s.hw.chunk then
    .next (s.setPort { data := (s.cols.getD col []).getD bin fZero })
  else .fault (.columnNotEmitted col bin)

/-- SRC delivers further bytes of a stream that has not ended (R50; log entry 13). -/
def srcDeliver (bytes : List Byte) (s : State) : State :=
  match s.src.tail with
  | .more => s.setSrc { s.src with bytes := s.src.bytes ++ bytes }
  | _ => s

/-- SRC's stream ends or fails after what it delivered (R201; log entry 13). -/
def srcEnd (t : SrcTail) (s : State) : State :=
  match s.src.tail with
  | .more => s.setSrc { s.src with tail := t }
  | _ => s

end Sys2Proof.Machine
end

