-- ==== Sys2Proof/WellFormed.lean ====
section
/-! DEFINITION. What makes an input well formed. An `Instr` has no operand field (R114), so every `Instr`
is well formed; the checks are of the words and inputs around it. The checks of a configuration are
`Machine.configLegal`'s four. -/

namespace Sys2Proof

/-- An input is well formed when a step word is an operation, a host access names a register (R29), a
column read names a bin (R88), and an end of the stream is an end (R201). -/
def Input.wf (p : Params) : Input → Bool
  | .op w => match decode w with
    | .ok _ => true
    | .error _ => false
  | .hostWrite addr _ => (Machine.hostIndex p addr).isSome
  | .hostRead addr => (Machine.hostIndex p addr).isSome
  | .readColumn _ bin => bin < p.chunk
  | .srcAttach _ _ => true
  | .srcDetach => true
  | .srcDeliver _ => true
  | .srcEnd t => t ≠ .more

end Sys2Proof
end

