-- ==== Sys2Proof/Machine/Step.lean ====
section
/-! DEFINITION. One step of the block: the next input is taken and acted on (R8, R9; log entries 1, 18). -/

namespace Sys2Proof.Machine

/-- What an input does to the state. -/
def applyInput (i : Input) (s : State) : Result :=
  match i with
  | .op w =>
    match decode w with
    | .ok op => exec op s
    | .error _ => .refused (.notAnOperation w)
  | .hostWrite addr v => hostWrite addr v s
  | .hostRead addr => hostRead addr s
  | .readColumn col bin => readColumn col bin s
  | .srcAttach bytes tail => .next (s.setSrc { isOpen := true, bytes := bytes, tail := tail })
  | .srcDetach => .next (s.setSrc { s.src with isOpen := false })
  | .srcDeliver bytes => .next (srcDeliver bytes s)
  | .srcEnd tail => .next (srcEnd tail s)

/-- One step. -/
def step (s : State) : Host.Outcome State Fault Refusal :=
  applyInput (takeInput s).1 (takeInput s).2

/-- `s` with the step word `w` as the very next input. -/
def State.withFetchWord (s : State) (nbits w : Nat) : State :=
  s.setInputs (.op (tableWord nbits w) :: s.inputs)

end Sys2Proof.Machine
end

