-- ==== Sys2Proof/Safety.lean ====
section
/-! DEFINITION. What a good state is: the structural invariant of every state a step can reach, the
invariant of the handoff (R81, R90, R191), and the other terms of the statements. Statements use these; the machine does not. -/

namespace Sys2Proof.Machine

/-- The structural invariant: the ring in its canonical form and inside RINGLEN, cursors and positions in
the ranges of R21 and R36, register files and columns of CHUNK entries, `ncol` the length of the log, CHX
zero (R35), the three state registers, `running`, the latches, the timer and the exit codes in step
with one another (R26, R37, R38, R52), and a composite operation under way only where its agent may work, its
operands as its parts so far left them (R78; log entry 3). -/
structure Inv (s : State) : Prop where
  ringWf : s.ring.wf = true
  ringBelow : s.ring.below s.hw.ringLen = true
  wrLt : s.prod.wr < s.hw.ringLen
  runLt : s.prod.run < s.hw.batch
  rdLt : s.cons.rd < s.hw.ringLen
  idxLt : s.spectral.idx < s.hw.ringLen
  limRange : 0 ≤ s.cons.lim ∧ s.cons.lim < s.hw.ringLen
  prevRange : 0 ≤ s.cons.prev ∧ s.cons.prev < s.hw.ringLen
  ppendRange : -1 ≤ s.prod.ppend ∧ s.prod.ppend < s.hw.ringLen
  positionRange : -1 ≤ s.hand.position ∧ s.hand.position < s.hw.ringLen
  cntLt : 1 ≤ s.sup.spc → s.cons.part = .none ∨ s.cons.part = .taken → s.cons.cnt < s.sup.spc
  cntLe : 1 ≤ s.sup.spc → s.cons.cnt ≤ s.sup.spc
  winLen : s.spectral.win.length = s.hw.chunk
  bufLen : s.spectral.buf.length = s.hw.chunk
  accLen : s.spectral.acc.length = s.hw.chunk
  vLen : s.spectral.v.length = s.hw.chunk
  outLen : s.spectral.out.length = s.hw.chunk
  colsLen : ∀ c ∈ s.cols, c.length = s.hw.chunk
  ncolEq : s.cons.ncol = s.cols.length
  ncolLe : s.cons.ncol ≤ s.cfg.pixcols.toNat
  ncolLt : s.cons.cstate = .await ∨ s.cons.cstate = .drain → s.cons.ncol < s.cfg.pixcols.toNat
  chxZero : layoutChx s.regs.layout = 0#4
  prodIdle : s.prod.pstate = .idle ↔ s.sup.sstate = .idle
  consIdle : s.cons.cstate = .idle ↔ s.sup.sstate = .idle
  runningIff : s.sup.running = true ↔ s.sup.sstate = .run
  latched : s.sup.pabort = true ∨ s.sup.cabort = true → s.sup.running = false
  timerIff : s.sup.timerArmed = true ↔ s.sup.sstate = .stopping ∨ s.sup.sstate = .aborting
  prodExit : s.prod.pstate = .exit → s.prod.pexit ≠ .none
  prodLive : s.sup.sstate ≠ .idle → s.prod.pexit ≠ .none → s.prod.pstate = .exit
  consExit : s.cons.cstate = .exit → s.cons.cexit ≠ .none
  consLive : s.sup.sstate ≠ .idle → s.cons.cexit ≠ .none → s.cons.cstate = .exit
  prodPart : s.prod.part ≠ .none → prodWorks s ∧ hasFrame s = true
  consPart : s.cons.part ≠ .none → consWorks s ∧ (s.spectral.idx + 1) % s.hw.ringLen = s.cons.rd
  chunkDue : s.cons.part ∈ [.chunk, .gathered, .windowed, .transformed, .accumulated] →
    1 ≤ s.cons.cnt ∧ (s.cons.cnt % s.hw.chunk = 0 ∨ (s.cons.cnt = s.sup.spc ∧ s.cons.nchunk = 0))
  columnDue : s.cons.part = .column → 1 ≤ s.cons.cnt ∧ s.cons.cnt = s.sup.spc ∧ 1 ≤ s.cons.nchunk
  binOutside : s.cons.part ≠ .column → s.spectral.bin = 0 ∧ s.spectral.divided = false
  binInside : s.spectral.bin ≤ s.hw.chunk ∧ (s.spectral.divided = true → s.spectral.bin < s.hw.chunk)
  fftOutside : s.fft.phase ≠ .idle → s.cons.part = .windowed
  fftPass : s.fft.phase = .pass → passLegal (2 * s.hw.chunk) s.fft.l
  fftReady : s.fft.phase = .ready → passLegal s.hw.chunk s.fft.l ∧
    ((s.fft.k = s.hw.chunk ∧ s.fft.j = 0) ∨ bflyDue s)
  fftInside : s.fft.phase ∈ [.product, .sum, .difference, .advance] → bflyDue s

/-- How far cursor `b` is ahead of cursor `a` around the ring. -/
def ahead (p : Params) (a b : Nat) : Nat := (b + p.ringLen - a) % p.ringLen

/-- Samples written since the last published cursor. -/
def unpublished (s : State) : Nat := ahead s.hw s.hand.position.toNat s.prod.wr

/-- Samples of the received publication still to be consumed. -/
def unread (s : State) : Nat := ahead s.hw s.cons.rd s.cons.lim.toNat

/-- Samples of a PSTEP under way that are written and not counted in `run` (R205; log entry 3). -/
def uncounted (s : State) : Nat := if s.prod.part = .written then 1 else 0

/-- Samples of a CSTEP under way that are consumed, and whose window may still be read (R222; log entry 3). -/
def inHand (s : State) : Nat := if s.cons.part = .none then 0 else 1

/-- CONS has received the last publication and is draining it. -/
def drainClause (s : State) : Prop :=
  s.hand.workerDone = false ∧ s.hand.position = s.cons.lim ∧ unread s + inHand s ≤ s.hw.batch

/-- CONS has drained what it received: either the slot is empty, or it holds one publication that CONS has
not received, a cursor within one batch or the sentinel. -/
def awaitClause (s : State) : Prop :=
  (s.cons.rd : Int) = s.cons.lim ∧ s.cons.prev = s.cons.lim ∧
  (s.hand.workerDone = true → s.hand.position = s.cons.lim) ∧
  (s.hand.workerDone = false →
    (s.hand.position = -1 ∧ (s.prod.wr : Int) = s.cons.lim) ∨
    (s.hand.position ≠ -1 ∧ 0 < ahead s.hw s.cons.lim.toNat s.hand.position.toNat ∧
      ahead s.hw s.cons.lim.toNat s.hand.position.toNat ≤ s.hw.batch))

/-- CONS has received the sentinel. -/
def sentinelClause (s : State) : Prop :=
  s.hand.workerDone = false ∧ s.hand.position = -1 ∧ (s.cons.rd : Int) = s.cons.lim ∧
  (s.prod.wr : Int) = s.cons.lim

/-- What the handoff guarantees of CONS, by its state. -/
def consClause (s : State) : Prop :=
  match s.cons.cstate with
  | .idle => True
  | .drain => drainClause s
  | .await => awaitClause s
  | .exit =>
    match s.cons.cexit with
    | .complete => drainClause s
    | .sentinel => sentinelClause s
    | _ => drainClause s ∨ awaitClause s

/-- What the handoff guarantees of PROD, by its state (R90 a, R184 to R186, R191). -/
def prodClause (s : State) : Prop :=
  match s.prod.pstate with
  | .idle => True
  | .run => s.hand.position ≠ -1 ∧ unpublished s = s.prod.run + uncounted s
  | .sigWait =>
    s.hand.position ≠ -1 ∧ s.prod.run = 0 ∧ s.prod.ppend = s.prod.wr ∧ unpublished s = s.hw.batch
  | .sigWaitLast =>
    s.hand.position ≠ -1 ∧ s.prod.run = 0 ∧ s.prod.ppend = s.prod.wr ∧ 0 < unpublished s ∧
      unpublished s < s.hw.batch
  | .sigWaitEnd => s.hand.position ≠ -1 ∧ s.prod.run = 0 ∧ s.prod.ppend = -1 ∧ unpublished s = 0
  | .exit =>
    if s.prod.pexit = .eos then s.hand.position = -1
    else s.hand.position ≠ -1 ∧ unpublished s ≤ s.hw.batch

/-- The invariant of the handoff, in a run. -/
def HandoffInv (s : State) : Prop := s.sup.sstate = .idle ∨ (prodClause s ∧ consClause s)

/-- The steps of PROD that do not go through the handoff slot. -/
def prodSteps : List Instr := [.ppoll, .pfetch, .pdecode, .rbwr, .pstep, .peos, .pfail]

/-- The steps of CONS, its parts and its units' among them. -/
def consSteps : List Instr :=
  [.cpoll, .cstep, .await, .cexit, .rbrd, .rbwin, .window, .fft, .bitrev, .twid, .bfly, .bfpass, .acc, .cchunk,
   .ccol, .cmul, .cadd, .csub, .cdivs, .cabs, .carg]

/-- The operations taken one after the other, as long as each answers a next state. -/
def runOps : List Instr → State → Result
  | [], s => .next s
  | i :: is, s =>
    match exec i s with
    | .next t => runOps is t
    | r => r

/-- The word `w` that HOST writes to register `ci` is the next input. -/
def State.hostWrites (s : State) (i : Nat) (v : BitVec 64) : State :=
  s.setInputs (.hostWrite (s.hw.hostBase + 8 * i) v :: s.inputs)

/-- A read of register `ci` by HOST is the next input. -/
def State.hostReads (s : State) (i : Nat) : State :=
  s.setInputs (.hostRead (s.hw.hostBase + 8 * i) :: s.inputs)

/-- `r` is the binary64 of sign `sg` that R147 gives for the exact magnitude `num / den` (in units of
2^-1074): an infinity from half a step above the largest finite value on, else the finite value nearest to
it, and of two equally near ones the one whose last bit is 0. -/
def NearestEven (sg : Bool) (num den : Nat) (r : F64) : Prop :=
  if (2 ^ 54 - 1) * 2 ^ 2044 * den ≤ num then r = fPack sg infMag
  else
    fIsFinite r = true ∧ fSign r = sg ∧
    ∀ z : F64, fIsFinite z = true →
      ((fScaled r : Int) * den - num).natAbs ≤ ((fScaled z : Int) * den - num).natAbs ∧
      (((fScaled r : Int) * den - num).natAbs = ((fScaled z : Int) * den - num).natAbs →
        fScaled r ≠ fScaled z → fMag r % 2 = 0)

/-- The running twiddle after `j` advances from `(1.0, +0.0)` (R166). -/
def runningTwiddle (wl : Cplx) : Nat → Cplx
  | 0 => cOne
  | j + 1 => cMul (runningTwiddle wl j) wl

/-- `n` times the operations of `is`. -/
def timesOps (n : Nat) (is : List Instr) : List Instr := (List.replicate n is).flatten

/-- The parts of a PSTEP under way that are still due (R205; log entry 3). -/
def prodLeft : ProdPart → List Instr
  | .none => []
  | .decoded => [.rbwr, .pstep]
  | .written => [.pstep]

/-- What is left of an FFT, wherever it stands: the butterfly's other parts and its advance, the other butterflies of
the pass, the other passes, the end. An operation that is not due, for what it would do is done, changes nothing
(log entry 2). -/
def fftLeft (p : Params) : List Instr :=
  [.cadd, .csub, .bfly, .cmul] ++ timesOps (p.chunk / 2) [.bfly, .cmul] ++ timesOps p.log2Chunk [.bfpass] ++ [.fft]

/-- What is left of a CCOL some of whose CDIVS and CABS are taken, and of one that has not begun. -/
def columnLeft (s : State) : List Instr :=
  if s.spectral.bin = 0 ∧ s.spectral.divided = false then [.ccol]
  else .cabs :: timesOps s.hw.chunk [.cdivs, .cabs] ++ [.ccol]

/-- The parts of a CSTEP under way that are still due (R222, R225; log entry 3). -/
def consLeft (s : State) : List Instr :=
  match s.cons.part with
  | .none => []
  | .taken => [.cstep, .cchunk, .ccol]
  | .chunk => [.cchunk, .ccol]
  | .gathered => [.window, .fft, .acc, .cchunk, .ccol]
  | .windowed => fftLeft s.hw ++ [.acc, .cchunk, .ccol]
  | .transformed => [.acc, .cchunk, .ccol]
  | .accumulated => [.cchunk, .ccol]
  | .column => columnLeft s

/-- An FFT taken at the lowest level: BITREV; for each of the `m` passes TWID, and `CHUNK/2` times a butterfly's CMUL,
CADD, CSUB and end and the CMUL that advances the twiddle, and the end of the pass; the end of the transform (R116,
R166, R167). Its length is the work of one transform (R170). -/
def fftParts (p : Params) : List Instr :=
  .bitrev ::
    timesOps p.log2Chunk (.twid :: timesOps (p.chunk / 2) [.cmul, .cadd, .csub, .bfly, .cmul] ++ [.bfpass]) ++ [.fft]

/-- Every operation of the list is taken: none finds itself not due, which would change nothing (log entry 2). -/
def allTaken : List Instr → State → Prop
  | [], _ => True
  | i :: is, s => ∃ t : State, exec i s = .next t ∧ t ≠ s ∧ allTaken is t

/-- Both lists of operations run, and the states they lead to differ at most in the temporaries of the complex
unit and of the FFT engine, which are dead where neither is at work (R28, R140). -/
def sameButTemps (is js : List Instr) (s : State) : Prop :=
  ∃ t u : State, runOps is s = .next t ∧ runOps js s = .next u ∧
    t = (u.setCu t.cu).setFft { t.fft with phase := u.fft.phase }

/-- Every value of every column emitted lies in `[0, 1]` (and is no NaN, since no NaN is ordered). -/
def columnsInUnitInterval (s : State) : Prop :=
  ∀ c ∈ s.cols, ∀ x ∈ c, fLe fZero x = true ∧ fLe x fOne = true

/-- No value of the list is a NaN. -/
def noNaN (v : List F64) : Prop := ∀ x ∈ v, fIsNaN x = false

end Sys2Proof.Machine
end

