-- ==== Sys2Proof/Certificates/Slice0/Obligations.lean ====
section
/-! DEFINITION. The statements for the provers, after the numbered rules of spec/. An equation
`exec i s = .next { s with ... }` says what the operation writes, that it writes nothing else, and that it
completes. -/

open Sys2Proof Sys2Proof.Machine

/-! ## Reset, words, and the host's port -/

/-- R53, R310, R30, R31: what HOST finds after power-on. CHUNK reads 1024 and LOOKAHEAD 32, every other
register 0; the three agents are idle, no column is there, no pulse was given, the timer is disarmed. (The
values of `ring`, `acc` and the other "any value" fields are the model's: log entries 8 and 9; nothing is
said of them here.) -/
def Obligations.ResetState : Prop :=
  (∀ i : Nat, readReg State.reset i = if i = 0 then 1024#64 else if i = 1 then 32#64 else 0#64) ∧
  State.reset.sup.sstate = .idle ∧ State.reset.prod.pstate = .idle ∧ State.reset.cons.cstate = .idle ∧
  State.reset.cols = [] ∧ State.reset.lines = { evColumn := 0, evFail := 0 } ∧
  State.reset.sup.timerArmed = false ∧
  State.reset.prod.wr = 0 ∧ State.reset.prod.run = 0 ∧ State.reset.prod.ppend = 0 ∧
  State.reset.prod.nframes = 0 ∧ State.reset.cons.rd = 0 ∧ State.reset.cons.lim = 0 ∧
  State.reset.cons.prev = 0 ∧ State.reset.cons.cnt = 0 ∧ State.reset.cons.nchunk = 0 ∧
  State.reset.hw.batch = 32768 ∧ State.reset.hw.ringLen = 66560

/-- The state after power-on reset, of an instance of any parameters, meets the structural invariant and
the invariant of the handoff. -/
def Obligations.ResetMeetsInvariant : Prop :=
  ∀ p : Params, Inv (State.powerOn p) ∧ HandoffInv (State.powerOn p)

/-- A sanity statement: words written out from R110 and R115. -/
def Obligations.DecodesWordsOfTheTable : Prop :=
  decode 0x01000000#32 = .ok .start ∧ decode 0x09000000#32 = .ok .join ∧
  decode 0x13000000#32 = .ok .cdivs ∧ decode 0x24000000#32 = .ok .bfpass ∧
  decode 0x34000000#32 = .ok .await ∧ decode 0x43000000#32 = .ok .pstep ∧
  decode 0x55000000#32 = .ok .ccol ∧ decode 0x03000000#32 = .error (.unassigned 3) ∧
  decode 0x57000000#32 = .error (.unassigned 0x57) ∧ decode 0x01000001#32 = .error .argNotZero

/-- Decode and encode agree both ways: every operation is read from its word, and no other word is read as
an operation. So no two operations share a word, and every unassigned number and every word with
`arg ≠ 0` is rejected. -/
def Obligations.DecodeAndEncodeAgree : Prop :=
  ∀ (w : Word) (i : Instr), decode w = .ok i ↔ w = encode i

/-- A step runs the decoded operation: on the state with the input taken, and with nothing around it. The
list of inputs is the model's (log entry 1). -/
def Obligations.StepRunsTheDecodedOperation : Prop :=
  ∀ (s : State) (w : Word) (i : Instr) (rest : List Input),
    s.inputs = .op w :: rest → decode w = .ok i →
      step s = exec i { s with inputs := rest }

/-- R111 to R113: of the words HOST writes to CMD, one is START, one is STOP, and every other sets BADCMD
and changes nothing else. -/
def Obligations.CommandWords : Prop :=
  ∀ (s : State) (w : Word),
    (w = 0x01000000#32 → step (s.hostWrites 12 (w.setWidth 64)) = exec .start s) ∧
    (w = 0x02000000#32 → step (s.hostWrites 12 (w.setWidth 64)) = exec .stop s) ∧
    (w ≠ 0x01000000#32 → w ≠ 0x02000000#32 →
      step (s.hostWrites 12 (w.setWidth 64)) =
        .next { s with flags := { s.flags with badCmd := true } })

/-- R29, R32 to R35, R43: HOST's writes to `c0` to `c11`. A configuration register takes the value while
idle, LAYOUT without its bits 31:28; in any other state nothing changes but FLAGS.BUSY; a write to a
read-only register is ignored. That a 32-bit register takes the low 32 of the 64 bits written is the model's
choice (log entry 14). -/
def Obligations.ConfigurationWrites : Prop :=
  ∀ (s : State) (v : BitVec 64),
    (s.sup.sstate = .idle →
      step (s.hostWrites 2 v) = .next { s with regs := { s.regs with pixcols := v.setWidth 32 } } ∧
      step (s.hostWrites 3 v) = .next { s with regs := { s.regs with total := v } } ∧
      step (s.hostWrites 4 v) = .next { s with regs := { s.regs with rate := v.setWidth 32 } } ∧
      ∃ l : BitVec 32, step (s.hostWrites 5 v) = .next { s with regs := { s.regs with layout := l } } ∧
        l.extractLsb' 0 28 = v.extractLsb' 0 28 ∧ l.extractLsb' 28 4 = 0#4) ∧
    (s.sup.sstate ≠ .idle → ∀ i, 2 ≤ i → i ≤ 5 →
      step (s.hostWrites i v) = .next { s with flags := { s.flags with busy := true } }) ∧
    (∀ i, i ≤ 1 ∨ (6 ≤ i ∧ i ≤ 11) → step (s.hostWrites i v) = .next s)

/-- R30 to R42: a read of a register by HOST, allowed in every state, changes nothing in the block; what
each register reads, STATUS, HSTAT, FLAGS and LAYOUT field by field, LAYOUT's bits 31:28 being 0 in every
state that meets the invariant. That CHUNK, LOOKAHEAD, NCOL and SPC are read modulo their width is the
model's (log entry 10), and so is the field that holds what was read (log entry 14). -/
def Obligations.HostReads : Prop :=
  ∀ s : State,
    (∀ i, i ≤ 12 → step (s.hostReads i) = .next { s with port := { data := readReg s i } }) ∧
    (readReg s 0).toNat = s.hw.chunk % 2 ^ 32 ∧ (readReg s 1).toNat = s.hw.lookahead % 2 ^ 32 ∧
    readReg s 2 = s.regs.pixcols.setWidth 64 ∧ readReg s 3 = s.regs.total ∧
    readReg s 4 = s.regs.rate.setWidth 64 ∧ readReg s 5 = s.regs.layout.setWidth 64 ∧
    (readReg s 5).extractLsb' 0 3 = (latchCfg s.regs).bps ∧
    (readReg s 5).getLsbD 3 = (latchCfg s.regs).be ∧
    (readReg s 5).extractLsb' 4 8 = (latchCfg s.regs).nch ∧
    (readReg s 5).extractLsb' 12 16 = (latchCfg s.regs).bpf ∧
    (Inv s → (readReg s 5).extractLsb' 28 4 = 0#4) ∧
    (s.hand.position = -1 → readReg s 6 = 0xFFFFFFFF#64) ∧
    (∀ n : Nat, s.hand.position = n → n < 2 ^ 32 → (readReg s 6).toNat = n) ∧
    (readReg s 7).getLsbD 0 = s.hand.workerDone ∧ (readReg s 7).getLsbD 1 = s.sup.running ∧
    (readReg s 7).getLsbD 2 = s.sup.pabort ∧ (readReg s 7).getLsbD 3 = s.sup.cabort ∧
    (readReg s 7).extractLsb' 4 60 = 0#60 ∧
    ((readReg s 8).extractLsb' 0 3).toNat = s.sup.sstate.code ∧
    ((readReg s 8).extractLsb' 4 3).toNat = s.prod.pstate.code ∧
    ((readReg s 8).extractLsb' 8 3).toNat = s.cons.cstate.code ∧
    ((readReg s 8).extractLsb' 12 3).toNat = s.prod.pexit.code ∧
    ((readReg s 8).extractLsb' 16 3).toNat = s.cons.cexit.code ∧
    (∀ b, b = 3 ∨ b = 7 ∨ b = 11 ∨ b = 15 ∨ 19 ≤ b → (readReg s 8).getLsbD b = false) ∧
    (readReg s 9).getLsbD 0 = s.flags.flat ∧ (readReg s 9).getLsbD 1 = s.flags.decodeFail ∧
    (readReg s 9).getLsbD 2 = s.flags.badCmd ∧ (readReg s 9).getLsbD 3 = s.flags.busy ∧
    (readReg s 9).getLsbD 4 = s.flags.cfgErr ∧ (readReg s 9).getLsbD 5 = s.flags.expired ∧
    (readReg s 9).extractLsb' 6 58 = 0#58 ∧
    (readReg s 10).toNat = s.cons.ncol % 2 ^ 32 ∧ (readReg s 11).toNat = s.sup.spc % 2 ^ 64 ∧
    readReg s 12 = 0#64

/-! ## Binary64 arithmetic and the complex unit -/

/-- R147: `x + y` and `x - y` of finite values are the exact sum and difference, rounded once to nearest,
ties to even; an exact zero is `+0.0` unless both terms are `-0.0` (of a difference: unless `x` is `-0.0`
and `y` is `+0.0`). What IEEE-754 says is PRESUMED (log entry 21). -/
def Obligations.SumsRoundToNearestEven : Prop :=
  ∀ x y : F64, fIsFinite x = true → fIsFinite y = true →
    (fFixed x + fFixed y ≠ 0 →
      NearestEven (decide (fFixed x + fFixed y < 0)) (fFixed x + fFixed y).natAbs 1 (fAdd x y)) ∧
    (fFixed x + fFixed y = 0 → fAdd x y = fPack (fSign x && fSign y) 0) ∧
    (fFixed x - fFixed y ≠ 0 →
      NearestEven (decide (fFixed x - fFixed y < 0)) (fFixed x - fFixed y).natAbs 1 (fSub x y)) ∧
    (fFixed x - fFixed y = 0 → fSub x y = fPack (fSign x && !fSign y) 0)

/-- R147: `x * y` and `x / y` of finite values, the divisor not zero, are the exact product and quotient
rounded once to nearest, ties to even, with the sign of the product of signs; underflow is gradual. What
IEEE-754 says of overflow and of the signs of zeros is PRESUMED (log entry 21). -/
def Obligations.ProductsAndQuotientsRoundToNearestEven : Prop :=
  ∀ x y : F64, fIsFinite x = true → fIsFinite y = true →
    NearestEven (fSign x != fSign y) (fScaled x * fScaled y) fUnit (fMul x y) ∧
    (fIsZero y = false → NearestEven (fSign x != fSign y) (fUnit * fScaled x) (fScaled y) (fDiv x y))

/-- R12, R13: an integer of magnitude at most 2^53 converts to the binary64 of exactly that value; so does
every decoded sample, the chunk counter and CHUNK in the range the rules convert. -/
def Obligations.IntegersConvertExactly : Prop :=
  ∀ n : Int, n.natAbs ≤ 2 ^ 53 →
    fIsFinite (fOfInt n) = true ∧ fFixed (fOfInt n) = (fUnit : Int) * n ∧
    (n = 0 → fOfInt n = fZero)

/-- R141: the product, four multiplications, a difference and a sum in the rule's order; its corner cases (an
infinity times a zero, overflow) and its example. R294: it is used inside a CCHUNK only. In a butterfly its
operands are the twiddle and the entry `q` (R164); as the twiddle's advance, the running and the pass twiddle
(R166), and it then moves on to the next butterfly. The temporaries the operands pass through and that move are
the model's (log entries 29 and 30). -/
def Obligations.CmulResult : Prop :=
  opcode .cmul = 0x10#8 ∧
  (∀ (s : State) (v : Cplx), engineAt s .ready → bflyDue s → s.spectral.buf[bflyQ s]? = some v →
    exec .cmul s = .next { s with
      cu := { s.cu with
        a := s.fft.w, b := v
        r := { re := fSub (fMul s.fft.w.re v.re) (fMul s.fft.w.im v.im)
               im := fAdd (fMul s.fft.w.re v.im) (fMul s.fft.w.im v.re) } }
      fft := { s.fft with phase := .product } }) ∧
  (∀ s : State, engineAt s .advance → exec .cmul s = .next { s with
    cu := { s.cu with
      a := s.fft.w, b := s.fft.wl
      r := { re := fSub (fMul s.fft.w.re s.fft.wl.re) (fMul s.fft.w.im s.fft.wl.im)
             im := fAdd (fMul s.fft.w.re s.fft.wl.im) (fMul s.fft.w.im s.fft.wl.re) } }
    fft :=
      if s.fft.j + 1 < s.fft.l / 2 then
        { s.fft with j := s.fft.j + 1, w := cMul s.fft.w s.fft.wl, phase := .ready }
      else { s.fft with j := 0, k := s.fft.k + s.fft.l, w := cOne, phase := .ready } }) ∧
  fIsNaN (cMul { re := fInf, im := fZero } { re := fZero, im := fOne }).re = true ∧
  (∀ x y : F64, fIsFinite x = true → fIsFinite y = true →
    2 ^ 2098 * fUnit ≤ fScaled x * fScaled y → fMul x y = if fSign x = fSign y then fInf else fNegInf) ∧
  cMul { re := 0x3FF0000000000000#64, im := 0x4000000000000000#64 }
       { re := 0x4008000000000000#64, im := 0x4010000000000000#64 } =
    { re := 0xC014000000000000#64, im := 0x4024000000000000#64 }

/-- R142, R143: the sum and the difference part by part, their corner cases and the rules' examples. R294: they are
used inside a CCHUNK only. In a butterfly CADD takes the entry `p` and the product, CSUB the same two, and the
results go to the entries `p` and `q` (R164). The temporaries the operands pass through are the model's (log
entry 29). -/
def Obligations.CaddAndCsubResult : Prop :=
  opcode .cadd = 0x11#8 ∧ opcode .csub = 0x12#8 ∧
  (∀ (s : State) (u : Cplx), engineAt s .product → s.spectral.buf[bflyP s]? = some u →
    exec .cadd s = .next { s with
      cu := { s.cu with
        a := u, b := s.cu.r, r := { re := fAdd u.re s.cu.r.re, im := fAdd u.im s.cu.r.im } }
      spectral := { s.spectral with
        buf := s.spectral.buf.set (bflyP s) ⟨fAdd u.re s.cu.r.re, fAdd u.im s.cu.r.im⟩ }
      fft := { s.fft with phase := .sum } }) ∧
  (∀ s : State, engineAt s .sum → exec .csub s = .next { s with
    cu := { s.cu with r := { re := fSub s.cu.a.re s.cu.b.re, im := fSub s.cu.a.im s.cu.b.im } }
    spectral := { s.spectral with
      buf := s.spectral.buf.set (bflyQ s) ⟨fSub s.cu.a.re s.cu.b.re, fSub s.cu.a.im s.cu.b.im⟩ }
    fft := { s.fft with phase := .difference } }) ∧
  fIsNaN (fAdd fInf fNegInf) = true ∧ fAdd 0x8000000000000000#64 fZero = fZero ∧
  fIsNaN (fSub fInf fInf) = true ∧ fIsNaN (fSub fNegInf fNegInf) = true ∧
  (∀ x : F64, fIsFinite x = true → fSub x x = fZero) ∧
  cAdd { re := 0x3FF0000000000000#64, im := 0x4000000000000000#64 }
       { re := 0x4008000000000000#64, im := 0x4010000000000000#64 } =
    { re := 0x4010000000000000#64, im := 0x4018000000000000#64 } ∧
  cSub { re := 0x3FF0000000000000#64, im := 0x4000000000000000#64 }
       { re := 0x4008000000000000#64, im := 0x4010000000000000#64 } =
    { re := 0xC000000000000000#64, im := 0xC000000000000000#64 }

/-- R144: two divisions; division by a zero, by a NaN and by an infinity; the divisor of the pipeline,
`f64(nchunk)` with `nchunk >= 1`, is none of these in the range R13 gives. R294: it is used inside a CCOL only, in
the loop over the bins, on the due bin of `acc` and `f64(nchunk)` (R228). The temporaries the operands pass
through are the model's (log entry 29). -/
def Obligations.CdivsResult : Prop :=
  opcode .cdivs = 0x13#8 ∧
  (∀ (s : State) (c : Cplx), consAt s .column → s.spectral.bin < s.hw.chunk → s.spectral.divided = false →
    s.spectral.acc[s.spectral.bin]? = some c →
    exec .cdivs s = .next { s with
      cu := { s.cu with
        a := c, s := fOfNat s.cons.nchunk
        r := { re := fDiv c.re (fOfNat s.cons.nchunk), im := fDiv c.im (fOfNat s.cons.nchunk) } }
      spectral := { s.spectral with divided := true } }) ∧
  (∀ x : F64, fIsNaN x = false → fIsZero x = false →
    fDiv x fZero = (if fSign x then fNegInf else fInf) ∧
    fDiv x 0x8000000000000000#64 = (if fSign x then fInf else fNegInf)) ∧
  (∀ x z : F64, fIsNaN x = true ∨ fIsZero x = true → fIsZero z = true → fIsNaN (fDiv x z) = true) ∧
  (∀ x z : F64, fIsNaN z = true → fIsNaN (fDiv x z) = true) ∧
  (∀ x z : F64, fIsFinite x = true → fIsInf z = true → fDiv x z = fPack (fSign x != fSign z) 0) ∧
  (∀ n : Nat, 1 ≤ n → n < 2 ^ 53 → fIsFinite (fOfNat n) = true ∧ fIsZero (fOfNat n) = false) ∧
  cDivs { re := 0x4018000000000000#64, im := 0xC008000000000000#64 } 0x4008000000000000#64 =
    { re := 0x4000000000000000#64, im := 0xBFF0000000000000#64 } ∧
  cDivs { re := fOne, im := 0xC000000000000000#64 } fZero = { re := fInf, im := fNegInf } ∧
  fIsNaN (cDivs { re := fZero, im := 0x4010000000000000#64 } fZero).re = true ∧
  (cDivs { re := fZero, im := 0x4010000000000000#64 } fZero).im = fInf

/-- R145, R146, R228 with U3, U4 and U5: CABS is `NUM.hypot` of the parts and CARG `NUM.atan2`, imaginary part
first, each written to the unit's real result. R294: they are used inside a CCHUNK or a CCOL only. CABS, in the
loop over a column's bins, takes the mean that CDIVS left; the bin's `v` gets the result, or the mean's real part in
`ACC_MODE = magnitude`, where R228 says that it is the result (log entry 5), and the next bin is due; CARG, which
the pipeline does not use, takes what the unit's temporary holds and changes nothing else (log entry 29). Of the
three functions only the stated limits are known; they are free within them (log entry 5). Ten times a logarithm is finite, as R228 says of the dB values, wherever
the logarithm is at most a tenth of the largest finite value (log entry 31). -/
def Obligations.MagnitudePhaseAndLogarithm : Prop :=
  opcode .cabs = 0x14#8 ∧ opcode .carg = 0x15#8 ∧
  (∀ s : State, unitInUse s →
    exec .carg s = .next { s with cu := { s.cu with f := numAtan2 s.cu.a.im s.cu.a.re } }) ∧
  (∀ s : State, consAt s .column → s.spectral.bin < s.hw.chunk → s.spectral.divided = true →
    ∃ m : F64, exec .cabs s = .next { s with
        cu := { s.cu with a := s.cu.r, f := numHypot s.cu.r.re s.cu.r.im }
        spectral := { s.spectral with
          v := s.spectral.v.set s.spectral.bin m, bin := s.spectral.bin + 1, divided := false } } ∧
      (s.hw.accMode = .complex → m = numHypot s.cu.r.re s.cu.r.im) ∧
      (s.hw.accMode = .magnitude → m = s.cu.r.re)) ∧
  (∀ x y : F64,
    (fIsNaN (numHypot x y) = true ∨ (fSign (numHypot x y) = false)) ∧
    (fIsZero x = true → fIsZero y = true → numHypot x y = fZero) ∧
    (fIsInf x = true ∨ fIsInf y = true → numHypot x y = fInf) ∧
    (fIsInf x = false → fIsInf y = false → fIsNaN x = true ∨ fIsNaN y = true →
      fIsNaN (numHypot x y) = true) ∧
    (fIsFinite x = true → fIsFinite y = true →
      fScaled x ^ 2 + fScaled y ^ 2 ≤ ((2 ^ 53 - 1) * 2 ^ 2045) ^ 2 → fIsFinite (numHypot x y) = true)) ∧
  (∀ y x : F64,
    (fIsNaN (numAtan2 y x) = true ∨
      (fLe 0xC00921FB54442D18#64 (numAtan2 y x) = true ∧ fLe (numAtan2 y x) 0x400921FB54442D18#64 = true)) ∧
    (fIsFinite x = true → fLt fZero x = true → numAtan2 fZero x = fZero) ∧
    (fIsFinite y = true → fLt fZero y = true → fIsZero x = true →
      numAtan2 y x = 0x3FF921FB54442D18#64)) ∧
  (∀ b : LogBase,
    numLog b fZero = fNegInf ∧ numLog b fOne = fZero ∧ numLog b fInf = fInf ∧
    (∀ x : F64, fIsNaN x = true → fIsNaN (numLog b x) = true) ∧
    (∀ x : F64, fIsFinite x = true → fLt fZero x = true →
      fIsFinite (numLog b x) = true) ∧
    (∀ x : F64, fMag (numLog b x) ≤ 0x7FB9999999999999 → fIsFinite (fMul fTen (numLog b x)) = true) ∧
    (∀ x y : F64, fIsFinite y = true → fLt fZero x = true → fLe x y = true →
      fLe (numLog b x) (numLog b y) = true))

/-! ## The FFT engine -/

/-- R162: after BITREV entry `i` is what entry `rev_m(i)` was; `rev_m` reverses the `m` low bits. No transform
has begun, and the pass of length 2 is due after it (log entry 30). -/
def Obligations.BitrevPermutes : Prop :=
  opcode .bitrev = 0x21#8 ∧
  (∀ m i k : Nat, i < 2 ^ m → k < m →
    revBits m i < 2 ^ m ∧ (revBits m i).testBit (m - 1 - k) = i.testBit k) ∧
  (∀ s : State, engineAt s .idle → s.spectral.buf.length = s.hw.chunk →
    ∃ b : List Cplx, exec .bitrev s = .next { s with
        spectral := { s.spectral with buf := b }
        fft := { s.fft with l := 2, phase := .pass } } ∧
      b.length = s.hw.chunk ∧
      ∀ i : Nat, i < s.hw.chunk → b[i]? = s.spectral.buf[revBits s.hw.log2Chunk i]?) ∧
  (∀ a : List Cplx, bitrevBuf 0 a = a ∧ bitrevBuf 1 a = a) ∧
  (List.range 8).map (revBits 3) = [0, 4, 2, 6, 1, 5, 3, 7] ∧
  (List.range 4).map (revBits 2) = [0, 2, 1, 3] ∧
  (∀ x y z w : Cplx, bitrevBuf 2 [x, y, z, w] = [x, z, y, w])

/-- R163: the pass twiddle from `NUM.cos` and `NUM.sin` of the rounded angle, for every length `l` a power
of two from 2 to CHUNK; with the limits U1 and U2 give, both parts lie in `[-1, 1]` (what lies within them is
free: log entry 5). The pass of length `l` is due, and its first butterfly after it (log entry 30). -/
def Obligations.TwidResult : Prop :=
  opcode .twid = 0x22#8 ∧
  (∀ (s : State) (p : Nat), engineAt s .pass → 1 ≤ p → p ≤ s.hw.log2Chunk → s.fft.l = 2 ^ p →
    exec .twid s = .next { s with fft := { s.fft with
      wl := { re := numCos (fDiv (fMul 0x4000000000000000#64 0x400921FB54442D18#64) (fOfNat (2 ^ p)))
              im := fNeg (numSin
                (fDiv (fMul 0x4000000000000000#64 0x400921FB54442D18#64) (fOfNat (2 ^ p)))) }
      k := 0, j := 0, w := cOne, phase := .ready } }) ∧
  (∀ x : F64, (fLe (fNeg fOne) (numCos x) = true ∧ fLe (numCos x) fOne = true) ∧
    (fLe (fNeg fOne) (numSin x) = true ∧ fLe (numSin x) fOne = true)) ∧
  numCos fZero = fOne

/-- R164: one butterfly on entries `p = k + j` and `q = p + l/2`, twiddle first in the product; every other
entry keeps its value, and so does everything outside `buf`, but that the twiddle's advance is due (log entry
30). R116: it is one CMUL, one CADD, one CSUB, which taken one by one leave the same but for the complex unit's
temporaries. -/
def Obligations.BflyResult : Prop :=
  opcode .bfly = 0x23#8 ∧
  (∀ s : State, engineAt s .ready → bflyDue s → s.spectral.buf.length = s.hw.chunk →
    (∃ b : List Cplx, exec .bfly s = .next { s with
        spectral := { s.spectral with buf := b }, fft := { s.fft with phase := .advance } } ∧
      b.length = s.hw.chunk ∧
      ∀ u v : Cplx, s.spectral.buf[s.fft.k + s.fft.j]? = some u →
        s.spectral.buf[s.fft.k + s.fft.j + s.fft.l / 2]? = some v →
        b[s.fft.k + s.fft.j]? = some (cAdd u (cMul s.fft.w v)) ∧
        b[s.fft.k + s.fft.j + s.fft.l / 2]? = some (cSub u (cMul s.fft.w v)) ∧
        ∀ i : Nat, i ≠ s.fft.k + s.fft.j → i ≠ s.fft.k + s.fft.j + s.fft.l / 2 →
          b[i]? = s.spectral.buf[i]?) ∧
    ∃ t u : State, runOps [.cmul, .cadd, .csub, .bfly] s = .next t ∧ exec .bfly s = .next u ∧
      t = u.setCu t.cu) ∧
  butterfly [{ re := 0x4010000000000000#64, im := fZero }, { re := 0x4018000000000000#64, im := fZero }]
      0 1 cOne =
    [{ re := 0x4024000000000000#64, im := fZero }, { re := 0xC000000000000000#64, im := fZero }]

/-- R164, the corner case: with the twiddle `(1, 0)` the product is the entry itself when the entry is
finite, up to the sign of a zero part. -/
def Obligations.UnitTwiddleKeepsTheEntry : Prop :=
  ∀ c : Cplx, fIsFinite c.re = true → fIsFinite c.im = true →
    ((cMul cOne c).re = c.re ∨ (fIsZero (cMul cOne c).re = true ∧ fIsZero c.re = true)) ∧
    ((cMul cOne c).im = c.im ∨ (fIsZero (cMul cOne c).im = true ∧ fIsZero c.im = true))

/-- R166: the whole pass in closed form. Every sub-block of length `l` computes the same running twiddles,
starting from `(1.0, +0.0)`; butterflies of one pass touch disjoint pairs, so each entry is one sum or
difference of entries of the buffer before the pass. Taken whole it leaves `k`, `j`, `w` and `w_l` as they are
(log entry 20), and the pass of twice the length is due after it (log entries 3 and 30). -/
def Obligations.PassInClosedForm : Prop :=
  opcode .bfpass = 0x24#8 ∧
  ∀ (s : State) (p : Nat), engineAt s .pass → p < s.hw.log2Chunk → s.fft.l = 2 ^ (p + 1) →
    s.spectral.buf.length = s.hw.chunk →
    ∃ b : List Cplx, exec .bfpass s = .next { s with
        spectral := { s.spectral with buf := b }, fft := { s.fft with l := 2 ^ (p + 2) } } ∧
      b.length = s.hw.chunk ∧
      ∀ i j, i < s.hw.chunk / 2 ^ (p + 1) → j < 2 ^ p →
        cAt b (i * 2 ^ (p + 1) + j) =
          cAdd (cAt s.spectral.buf (i * 2 ^ (p + 1) + j))
            (cMul (runningTwiddle (twiddle (2 ^ (p + 1))) j)
              (cAt s.spectral.buf (i * 2 ^ (p + 1) + j + 2 ^ p))) ∧
        cAt b (i * 2 ^ (p + 1) + j + 2 ^ p) =
          cSub (cAt s.spectral.buf (i * 2 ^ (p + 1) + j))
            (cMul (runningTwiddle (twiddle (2 ^ (p + 1))) j)
              (cAt s.spectral.buf (i * 2 ^ (p + 1) + j + 2 ^ p)))

/-- R167, R166, R116: FFT, taken whole where a CCHUNK asks for it, writes `buf` only, but that ACC is due. It is
BITREV followed by BFPASS for `l = 2, 4, ..., CHUNK`, and a BFPASS is TWID and then `CHUNK/2` times a BFLY and
the twiddle's CMUL: the operations taken one by one, each composite's own word after its parts, leave what the
one operation leaves, but for dead temporaries (log entries 3, 20 and 30). R170, the work of a transform: at the
lowest level it is `(n/2)*m` butterflies, `n*m` CMUL, `(n/2)*m` CADD and CSUB and `m` TWID, every one of them
taken, which for `n = 1024` are 5120, 10240, 5120, 5120 and 10. -/
def Obligations.FftIsBitrevThenPasses : Prop :=
  opcode .fft = 0x20#8 ∧
  (∀ s : State, engineAt s .idle →
    (∃ b : List Cplx, exec .fft s = .next { s with
      spectral := { s.spectral with buf := b }, cons := { s.cons with part := .transformed } }) ∧
    sameButTemps (.bitrev :: timesOps s.hw.log2Chunk [.bfpass] ++ [.fft]) [.fft] s ∧
    sameButTemps (fftParts s.hw) [.fft] s ∧ allTaken (fftParts s.hw) s) ∧
  (∀ p : Params,
    (fftParts p).count .bfly = p.chunk / 2 * p.log2Chunk ∧ (fftParts p).count .cmul = p.chunk * p.log2Chunk ∧
    (fftParts p).count .cadd = p.chunk / 2 * p.log2Chunk ∧ (fftParts p).count .csub = p.chunk / 2 * p.log2Chunk ∧
    (fftParts p).count .twid = p.log2Chunk) ∧
  (Params.hardware.chunk / 2 * Params.hardware.log2Chunk = 5120 ∧
    Params.hardware.chunk * Params.hardware.log2Chunk = 10240 ∧ Params.hardware.log2Chunk = 10) ∧
  ∀ s : State, engineAt s .pass → passLegal s.hw.chunk s.fft.l →
    (∃ t : State, runOps (.twid :: timesOps (s.hw.chunk / 2) [.bfly, .cmul] ++ [.bfpass]) s = .next t ∧
      t.fft.l = 2 * s.fft.l) ∧
    sameButTemps (.twid :: timesOps (s.hw.chunk / 2) [.bfly, .cmul] ++ [.bfpass]) [.bfpass] s

/-- R167, the corner case: a buffer of `(+0.0, +0.0)` stays so, whatever the free `NUM.cos` and `NUM.sin`
are within `[-1, 1]`. CHUNK is at most the hardware's 1024 here: for a much longer transform the running
product of two free numbers in `[-1, 1]` could overflow. -/
def Obligations.SilenceTransformsToSilence : Prop :=
  ∀ s : State, engineAt s .idle → s.hw.log2Chunk ≤ 10 →
    s.spectral.buf = List.replicate s.hw.chunk cZero →
    ∃ t : State, exec .fft s = .next t ∧ t.spectral = s.spectral

/-! ## Ring access and the handoff -/

/-- R180, R181: the two cursor operations, each where it is due in its composite (log entry 3). RBWR stores at
slot `wr` and moves `wr` on, wrapping; every other slot keeps its value. RBRD names the slot `rd`, reads it,
moves `rd` on, and stores nothing. -/
def Obligations.RingCursorOperations : Prop :=
  opcode .rbwr = 0x30#8 ∧ opcode .rbrd = 0x31#8 ∧
  (∀ s : State, prodAt s .decoded → s.ring.wf = true → ∃ m : Memory,
    exec .rbwr s = .next { s with
      ring := m, prod := { s.prod with wr := (s.prod.wr + 1) % s.hw.ringLen, part := .written } } ∧
    m.wf = true ∧ m.read s.prod.wr = s.prod.smp ∧
    ∀ a, a ≠ s.prod.wr → m.read a = s.ring.read a) ∧
  (∀ s : State, consAt s .none → (s.cons.rd : Int) ≠ s.cons.lim →
    exec .rbrd s = .next { s with
      spectral := { s.spectral with idx := s.cons.rd, smp := s.ring.read s.cons.rd }
      cons := { s.cons with rd := (s.cons.rd + 1) % s.hw.ringLen, part := .taken } })

/-- R182: RBWIN gathers `ring[(end - (CHUNK-1) + i) mod RINGLEN]` for `i = 0 .. CHUNK-1`, the remainder
being that of the integers; it stores nothing. The chunk operation is due, and WINDOW after it (log entry 3). -/
def Obligations.RbwinResult : Prop :=
  opcode .rbwin = 0x32#8 ∧
  (∀ s : State, consAt s .chunk → ∃ win : List F64,
    exec .rbwin s = .next { s with
      spectral := { s.spectral with win := win }, cons := { s.cons with part := .gathered } } ∧
    win.length = s.hw.chunk ∧
    ∀ i, i < s.hw.chunk → win[i]? = some (s.ring.read
      (((s.spectral.idx : Int) - ((s.hw.chunk : Int) - 1) + i) % (s.hw.ringLen : Int)).toNat)) ∧
  ∀ p : Params, p.log2ChunkPred = 1 → p.lookaheadPred = 0 →
    (List.range 4).map (windowSlot p 1) = [10, 11, 0, 1]

/-- R184, R185: SIGNAL in a wait state with no cancellation. With the previous handoff done it publishes
`ppend`, clears `workerDone`, and goes on by the wait state; else PROD stays blocked and nothing changes (log
entries 2 and 12). -/
def Obligations.SignalResult : Prop :=
  opcode .signal = 0x33#8 ∧
  ∀ s : State, s.sup.running = true → s.sup.pabort = false →
    (s.hand.workerDone = true →
      (s.prod.pstate = .sigWait → exec .signal s = .next { s with
        hand := { position := s.prod.ppend, workerDone := false }
        prod := { s.prod with pstate := .run } }) ∧
      (s.prod.pstate = .sigWaitLast → exec .signal s = .next { s with
        hand := { position := s.prod.ppend, workerDone := false }
        prod := { s.prod with ppend := -1, pstate := .sigWaitEnd } }) ∧
      (s.prod.pstate = .sigWaitEnd → exec .signal s = .next { s with
        hand := { position := s.prod.ppend, workerDone := false }
        prod := { s.prod with pexit := .eos, pstate := .exit } })) ∧
    (s.hand.workerDone = false → prodWaits s → exec .signal s = .next s)

/-- R186: SIGNAL cancellation. In the three wait states, the latch set or `running` clear, whatever
`workerDone` is: it is the PEXIT step, nothing is published, and no other step of PROD is enabled, which in the
model means that it changes nothing (log entries 2 and 3). -/
def Obligations.SignalCancellation : Prop :=
  ∀ s : State, prodWaits s → s.sup.pabort = true ∨ s.sup.running = false →
    exec .signal s = .next { s with prod := { s.prod with
      pexit := if s.sup.pabort = true then .aborted else .stopped, pstate := .exit } } ∧
    exec .pexit s = exec .signal s ∧
    ∀ i ∈ [Instr.rbwr, .ppoll, .pfetch, .pdecode, .pstep, .peos, .pfail], exec i s = .next s

/-- R187 to R189: AWAIT. Entry, when the batch is drained, marks the previous handoff done; completion takes
a position that differs from `prev`, or exits on the sentinel; with no new position CONS stays blocked;
cancellation goes before completion, and is the CEXIT step (log entries 2, 3 and 12). -/
def Obligations.AwaitResult : Prop :=
  opcode .await = 0x34#8 ∧
  (∀ s : State, consAt s .none → (s.cons.rd : Int) = s.cons.lim →
    exec .await s = .next { s with
      hand := { s.hand with workerDone := true }
      cons := { s.cons with prev := s.cons.lim, cstate := .await } }) ∧
  (∀ s : State, s.cons.cstate = .await → s.sup.running = true → s.sup.cabort = false →
    (s.hand.position = s.cons.prev → exec .await s = .next s) ∧
    (s.hand.position ≠ s.cons.prev → s.hand.position = -1 →
      exec .await s = .next { s with cons := { s.cons with cexit := .sentinel, cstate := .exit } }) ∧
    (s.hand.position ≠ s.cons.prev → s.hand.position ≠ -1 →
      exec .await s = .next { s with cons := { s.cons with lim := s.hand.position, cstate := .drain } })) ∧
  (∀ s : State, s.cons.cstate = .await → s.sup.cabort = true ∨ s.sup.running = false →
    exec .await s = exec .cexit s)

/-- R75, R183, R290: who writes what. PROD's operations write nothing of CONS or SUP, CONS's nothing of PROD
or SUP and never `position` or the ring; only START, SIGNAL and AWAIT write the handoff slot, only START,
RBWR and PSTEP the ring, only START, CSTEP and CCOL the column log, a STOP apart that first finishes a PSTEP
or CSTEP taken part by part (log entry 3). -/
def Obligations.OwnershipOfState : Prop :=
  ∀ (i : Instr) (s t : State), exec i s = .next t →
    (i ∈ [Instr.rbwr, .signal, .ppoll, .pfetch, .pdecode, .pstep, .peos, .pfail, .pexit] →
      t.cons = s.cons ∧ t.spectral = s.spectral ∧ t.cols = s.cols ∧ t.sup = s.sup ∧ t.cfg = s.cfg ∧
      t.regs = s.regs ∧ t.cu = s.cu ∧ t.fft = s.fft) ∧
    (i ∈ [Instr.cmul, .cadd, .csub, .cdivs, .cabs, .carg, .fft, .bitrev, .twid, .bfly, .bfpass, .rbrd,
          .rbwin, .await, .cpoll, .cstep, .window, .acc, .cchunk, .ccol, .cexit] →
      t.prod = s.prod ∧ t.ring = s.ring ∧ t.src = s.src ∧ t.sup = s.sup ∧ t.cfg = s.cfg ∧
      t.regs = s.regs ∧ t.hand.position = s.hand.position) ∧
    (i ≠ .start → i ≠ .signal → i ≠ .await → t.hand = s.hand) ∧
    (i ≠ .start → i ≠ .rbwr → i ≠ .pstep → i ≠ .stop ∨ s.prod.part = .none → t.ring = s.ring) ∧
    (i ≠ .start → i ≠ .cstep → i ≠ .ccol → i ≠ .stop ∨ s.cons.part = .none → t.cols = s.cols)

/-- The invariant of the handoff (R81, R90, R191) is kept by every operation, the parts of PSTEP and CSTEP taken
one by one among them. -/
def Obligations.HandoffInvariantKept : Prop :=
  ∀ (i : Instr) (s t : State), Inv s → HandoffInv s → exec i s = .next t → HandoffInv t

/-- R90: in a run the write cursor is at most one batch ahead of the watermark, the samples published and not
consumed are at most one batch, those written and not consumed at most two. A sample that RBWR has written
counts, its PSTEP under way or not (log entry 3). -/
def Obligations.RingBounds : Prop :=
  ∀ s : State, Inv s → HandoffInv s → s.sup.sstate ≠ .idle →
    s.prod.run + uncounted s ≤ s.hw.batch ∧
    (s.hand.position ≠ -1 →
      ahead s.hw s.hand.position.toNat s.prod.wr ≤ s.hw.batch ∧
      ahead s.hw s.cons.rd s.hand.position.toNat ≤ s.hw.batch) ∧
    (s.hand.position = -1 → ahead s.hw s.cons.rd s.prod.wr ≤ s.hw.batch) ∧
    ahead s.hw s.cons.rd s.prod.wr ≤ 2 * s.hw.batch

/-- R191: what PROD waits to publish differs from the position it replaces, and from the `prev` of a CONS
that has received that position, so AWAIT never misses a publication. -/
def Obligations.PublicationsDiffer : Prop :=
  ∀ s : State, Inv s → HandoffInv s → prodWaits s →
    s.prod.ppend ≠ s.hand.position ∧
    (s.cons.cstate = .await → s.hand.workerDone = true → s.prod.ppend ≠ s.cons.prev)

/-- R81: while CONS drains and PROD writes, no slot of any window CONS may still read, the one at the sample
just consumed among them, is a slot PROD may still write before its next publication completes. -/
def Obligations.RingReadsNeverMeetWrites : Prop :=
  ∀ s : State, Inv s → HandoffInv s → s.cons.cstate = .drain → s.prod.pstate = .run →
    ∀ i d, i < s.hw.chunk → s.prod.run + uncounted s + d < s.hw.batch →
      (∀ n, n < unread s →
        windowSlot s.hw ((s.cons.rd + n) % s.hw.ringLen) i ≠ (s.prod.wr + d) % s.hw.ringLen) ∧
      (s.cons.part ≠ .none → windowSlot s.hw s.spectral.idx i ≠ (s.prod.wr + d) % s.hw.ringLen)

/-! ## The producer -/

/-- R200, R220: the polls write nothing; what they find decides which steps of their agent do anything:
with a cancellation only the exit, and no other operation that R115 gives the agent, nor CARG; else, between two
steps, the fetch where SRC has an answer and none waits (log entry 11), and the next sample or the AWAIT entry. That a step which is not enabled changes nothing is the
model's (log entry 2), and so are the parts of PSTEP and CSTEP as steps (log entry 3). -/
def Obligations.Polls : Prop :=
  opcode .ppoll = 0x40#8 ∧ opcode .cpoll = 0x50#8 ∧
  (∀ s : State, exec .ppoll s = .next s ∧ exec .cpoll s = .next s) ∧
  (∀ s : State, s.prod.pstate = .run →
    (s.sup.pabort = true ∨ s.sup.running = false →
      exec .pexit s ≠ .next s ∧
      ∀ i ∈ [Instr.rbwr, .signal, .pfetch, .pdecode, .pstep, .peos, .pfail], exec i s = .next s) ∧
    (s.sup.pabort = false → s.sup.running = true →
      exec .pexit s = .next s ∧
      (s.prod.part = .none → s.prod.fetched = none →
        s.cfg.bpf.toNat ≤ s.src.bytes.length ∨ s.src.tail ≠ .more → exec .pfetch s ≠ .next s))) ∧
  (∀ s : State, s.cons.cstate = .drain →
    (s.sup.cabort = true ∨ s.sup.running = false →
      exec .cexit s ≠ .next s ∧
      ∀ i ∈ [Instr.cmul, .cadd, .csub, .cdivs, .cabs, .carg, .fft, .bitrev, .twid, .bfly, .bfpass, .rbrd,
        .rbwin, .await, .cstep, .window, .acc, .cchunk, .ccol], exec i s = .next s) ∧
    (s.sup.cabort = false → s.sup.running = true →
      exec .cexit s = .next s ∧
      (s.cons.part = .none → (s.cons.rd : Int) ≠ s.cons.lim →
        exec .await s = .next s ∧ exec .cstep s ≠ .next s) ∧
      (s.cons.part = .none → (s.cons.rd : Int) = s.cons.lim →
        exec .cstep s = .next s ∧ exec .await s ≠ .next s)))

/-- R201, R73: SRC's four answers. A whole frame is taken from the stream; a trailing partial frame is
discarded with the end of stream; without an answer nothing changes. The answer is kept until PSTEP, PEOS
or PFAIL uses it (log entry 11). R201 leaves the answer to SRC: that delivered bytes answer with a frame, and
that the mark after them decides otherwise, is the model's stream (log entry 13). -/
def Obligations.PfetchResult : Prop :=
  opcode .pfetch = 0x41#8 ∧
  ∀ s : State, prodAt s .none → s.prod.fetched = none →
    (∀ f rest, s.src.bytes = f ++ rest → f.length = s.cfg.bpf.toNat →
      exec .pfetch s = .next { s with
        src := { s.src with bytes := rest }, prod := { s.prod with fetched := some (.frame f) } }) ∧
    (s.src.bytes.length < s.cfg.bpf.toNat →
      (s.src.tail = .more → exec .pfetch s = .next s) ∧
      (s.src.tail = .eos → exec .pfetch s = .next { s with
        src := { s.src with bytes := [] }, prod := { s.prod with fetched := some .eos } }) ∧
      (s.src.tail = .fail → exec .pfetch s = .next { s with prod := { s.prod with fetched := some .fail } }))

/-- R104: the sample a frame's field stands for, as the rule writes it out, its range, that its conversion
is exact, and the rule's examples. -/
def Obligations.SampleAssembly : Prop :=
  (∀ (b : Nat) (f : List Byte), 1 ≤ b → b ≤ 4 → b ≤ f.length →
    sampleInt b false f =
      signExtend (8 * b) ((List.range b).map fun k => (f.getD k 0#8).toNat * 2 ^ (8 * k)).sum ∧
    sampleInt b true f =
      signExtend (8 * b) ((List.range b).map fun k => (f.getD (b - 1 - k) 0#8).toNat * 2 ^ (8 * k)).sum ∧
    ∀ be, -2 ^ (8 * b - 1) ≤ sampleInt b be f ∧ sampleInt b be f ≤ 2 ^ (8 * b - 1) - 1 ∧
      fFixed (fOfInt (sampleInt b be f)) = (fUnit : Int) * sampleInt b be f) ∧
  (∀ n v : Nat, 1 ≤ n → signExtend n v = (BitVec.ofNat n v).toInt) ∧
  (∀ (c : Cfg) (f : List Byte), sampleOf c f = fOfInt (sampleInt c.bps.toNat c.be f)) ∧
  sampleInt 2 false [0xE8#8, 0x03#8] = 1000 ∧ sampleInt 2 false [0x18#8, 0xFC#8] = -1000 ∧
  sampleInt 3 true [0xFF#8, 0xFF#8, 0x38#8] = -200 ∧ sampleInt 1 false [0x80#8] = -128

/-- R103, R104: encoding and assembling a sample agree both ways, for the widths 1 to 4 and both byte
orders; the bytes of the frame after the field do not matter. -/
def Obligations.SampleEncodeDecodeAgree : Prop :=
  ∀ (b : Nat) (be : Bool), 1 ≤ b → b ≤ 4 →
    (∀ (x : Int) (others : List Byte), -2 ^ (8 * b - 1) ≤ x → x < 2 ^ (8 * b - 1) →
      (encodeSample b be x).length = b ∧ sampleInt b be (encodeSample b be x ++ others) = x) ∧
    (∀ f : List Byte, f.length = b → encodeSample b be (sampleInt b be f) = f)

/-- R203, R205: PDECODE gives the sample of the fetched frame and writes nothing else, but that RBWR is due. PSTEP
stores it at slot `wr` and at no other slot, advances `wr` with wrap, counts the frame, uses the answer up, and
at the end of a batch asks for the publication of the cursor after the write. R116: PDECODE, RBWR and then
PSTEP's own word do what PSTEP does (the parts: log entry 3; the answer that waits: log entry 11). -/
def Obligations.PdecodeAndPstepResult : Prop :=
  opcode .pdecode = 0x42#8 ∧ opcode .pstep = 0x43#8 ∧
  ∀ (s : State) (f : List Byte), prodAt s .none → s.prod.fetched = some (.frame f) →
    exec .pdecode s = .next { s with prod := { s.prod with
      smp := fOfInt (sampleInt s.cfg.bps.toNat s.cfg.be f), part := .decoded } } ∧
    (s.ring.wf = true → ∃ m : Memory,
      exec .pstep s = .next { s with
        ring := m
        prod := { s.prod with
          smp := fOfInt (sampleInt s.cfg.bps.toNat s.cfg.be f)
          wr := (s.prod.wr + 1) % s.hw.ringLen
          nframes := s.prod.nframes + 1
          run := if s.prod.run + 1 = s.hw.batch then 0 else s.prod.run + 1
          ppend := if s.prod.run + 1 = s.hw.batch then ((s.prod.wr + 1) % s.hw.ringLen : Nat)
            else s.prod.ppend
          pstate := if s.prod.run + 1 = s.hw.batch then .sigWait else .run
          fetched := none } } ∧
      m.wf = true ∧ m.read s.prod.wr = fOfInt (sampleInt s.cfg.bps.toNat s.cfg.be f) ∧
      ∀ a, a ≠ s.prod.wr → m.read a = s.ring.read a) ∧
    runOps [.pdecode, .rbwr, .pstep] s = exec .pstep s

/-- R206: PEOS asks for the leftover first where there is one, then the sentinel; the answer is used up (log
entry 11). -/
def Obligations.PeosResult : Prop :=
  opcode .peos = 0x44#8 ∧
  ∀ s : State, prodAt s .none → s.prod.fetched = some .eos →
    (0 < s.prod.run → exec .peos s = .next { s with prod := { s.prod with
      ppend := s.prod.wr, run := 0, pstate := .sigWaitLast, fetched := none } }) ∧
    (s.prod.run = 0 → exec .peos s = .next { s with prod := { s.prod with
      ppend := -1, pstate := .sigWaitEnd, fetched := none } })

/-- R208, R271 (E2), R273: PFAIL sets DECODE_FAIL, pulses EV_FAIL, exits FAILED; nothing else is written,
neither the slot nor the ring nor the cursors (the latched answer: log entry 11). No other operation ever
records FAILED. -/
def Obligations.PfailResult : Prop :=
  opcode .pfail = 0x45#8 ∧
  (∀ s : State, prodAt s .none → s.prod.fetched = some .fail →
    exec .pfail s = .next { s with
      flags := { s.flags with decodeFail := true }
      lines := { s.lines with evFail := s.lines.evFail + 1 }
      prod := { s.prod with pexit := .failed, pstate := .exit } }) ∧
  (∀ (i : Instr) (s t : State), i ≠ .pfail → exec i s = .next t → t.prod.pexit = .failed →
    s.prod.pexit = .failed)

/-- R209, R231: PEXIT and CEXIT, enabled in the loop and in the waits when the agent's latch is set or
`running` is clear; ABORTED where the latch is set, else STOPPED; nothing else is written. -/
def Obligations.CooperativeExit : Prop :=
  opcode .pexit = 0x46#8 ∧ opcode .cexit = 0x56#8 ∧
  (∀ s : State, s.prod.pstate = .run ∨ prodWaits s →
    (s.sup.pabort = true → exec .pexit s =
      .next { s with prod := { s.prod with pexit := .aborted, pstate := .exit } }) ∧
    (s.sup.pabort = false → s.sup.running = false → exec .pexit s =
      .next { s with prod := { s.prod with pexit := .stopped, pstate := .exit } })) ∧
  (∀ s : State, s.cons.cstate = .drain ∨ s.cons.cstate = .await →
    (s.sup.cabort = true → exec .cexit s =
      .next { s with cons := { s.cons with cexit := .aborted, cstate := .exit } }) ∧
    (s.sup.cabort = false → s.sup.running = false → exec .cexit s =
      .next { s with cons := { s.cons with cexit := .stopped, cstate := .exit } }))

/-! ## The consumer -/

/-- R222, R223, R116: CSTEP takes one sample (RBRD and the counter), then runs the chunk operation at a multiple
of CHUNK, or at a column boundary of a column with no chunk, then closes the column when the counter is
`spc`, and so never with `spc = 0` (R223 d, R328). Taken part by part (RBRD, CSTEP's own word, then CCHUNK or
its parts, then CCOL, each where it is due: log entry 3), it leads to the same state. -/
def Obligations.CstepResult : Prop :=
  opcode .cstep = 0x51#8 ∧
  ∀ s : State, consAt s .none → (s.cons.rd : Int) ≠ s.cons.lim →
    s.spectral.bin = 0 → s.spectral.divided = false →
    (∃ t : State, exec .cstep s = .next t ∧ t.cons.part = .none) ∧
    ∃ u : State,
      u = { s with
        spectral := { s.spectral with idx := s.cons.rd, smp := s.ring.read s.cons.rd }
        cons := { s.cons with
          rd := (s.cons.rd + 1) % s.hw.ringLen
          cnt := s.cons.cnt + 1
          part :=
            if s.hw.chunk ∣ s.cons.cnt + 1 ∨ (s.cons.cnt + 1 = s.sup.spc ∧ s.cons.nchunk = 0) then .chunk
            else if s.cons.cnt + 1 = s.sup.spc then .column else .none } } ∧
      runOps [.rbrd, .cstep] s = .next u ∧
      (u.cons.part = .none → exec .cstep s = .next u) ∧
      (u.cons.part = .column → exec .cstep s = exec .ccol u) ∧
      (u.cons.part = .chunk → ∃ v : State, exec .cchunk u = .next v ∧
        (s.cons.cnt + 1 ≠ s.sup.spc → v.cons.part = .none ∧ exec .cstep s = .next v) ∧
        (s.cons.cnt + 1 = s.sup.spc → v.cons.part = .column ∧ exec .cstep s = exec .ccol v))

/-- R224 to R226, R116: WINDOW, ACC and CCHUNK, lane by lane, each where it is due (log entry 3); CCHUNK is
RBWIN, WINDOW, FFT, ACC and the chunk counter, whole or with its own word after its parts. The order of the
operations in the window's argument, `((2.0*PI)*f64(i))/f64(CHUNK)`, is the model's choice (R47 fixes none: log
entry 17). -/
def Obligations.ChunkOperations : Prop :=
  opcode .window = 0x52#8 ∧ opcode .acc = 0x53#8 ∧ opcode .cchunk = 0x54#8 ∧
  (∀ s : State, consAt s .gathered → s.spectral.win.length = s.hw.chunk → ∃ b : List Cplx,
    exec .window s = .next { s with
      spectral := { s.spectral with buf := b }
      fft := { s.fft with phase := .idle }, cons := { s.cons with part := .windowed } } ∧
    b.length = s.hw.chunk ∧
    ∀ (i : Nat) (x : F64), i < s.hw.chunk → s.spectral.win[i]? = some x → b[i]? = some
      { re := fMul x (fSub 0x3FE13A3EC02F2F98#64 (fMul 0x3FDD8B827FA1A0CF#64
          (numCos (fDiv (fMul (fMul 0x4000000000000000#64 0x400921FB54442D18#64) (fOfNat i))
            (fOfNat s.hw.chunk)))))
        im := fZero }) ∧
  (∀ s : State, consAt s .transformed → s.spectral.acc.length = s.hw.chunk →
    s.spectral.buf.length = s.hw.chunk → ∃ a : List Cplx,
      exec .acc s = .next { s with
        spectral := { s.spectral with acc := a }, cons := { s.cons with part := .accumulated } } ∧
      a.length = s.hw.chunk ∧
      ∀ (i : Nat) (x y : Cplx), s.spectral.acc[i]? = some x → s.spectral.buf[i]? = some y →
        (s.hw.accMode = .complex → a[i]? = some (cAdd x y)) ∧
        (s.hw.accMode = .magnitude →
          a[i]? = some ({ re := fAdd x.re (numHypot y.re y.im), im := fZero } : Cplx))) ∧
  (∀ s : State, consAt s .chunk → ∃ t : State,
    exec .cchunk s = .next t ∧ runOps [.rbwin, .window, .fft, .acc, .cchunk] s = .next t ∧
    t.cons = { s.cons with
      nchunk := s.cons.nchunk + 1, part := if s.cons.cnt = s.sup.spc then .column else .none })

/-- R227 to R230: CCOL at a column boundary, written out: the magnitudes of the means (in `ACC_MODE = magnitude`
the mean's real part), the dB values, their least and greatest, the range, the normalised column or the fallback
with FLAGS.FLAT, the append with its count and pulse, the reset of `acc`, `cnt` and `nchunk`, and COMPLETE at the
PIXCOLS-th column. Nothing else is written, but that the CSTEP is done. R116: `CHUNK` times CDIVS and CABS, and
then CCOL's own word, leave the same but for the complex unit's temporaries. (Where CCOL is due: log entry 3;
what NUM answers: log entry 5; where the product by 10.0 overflows: log entry 31.) -/
def Obligations.CcolResult : Prop :=
  opcode .ccol = 0x55#8 ∧
  ∀ s : State, consAt s .column → s.spectral.bin = 0 → s.spectral.divided = false →
    (s.spectral.acc.length = s.hw.chunk →
      ∃ (mag : Cplx → F64) (v out : List F64) (vmin vmax range : F64),
        (s.hw.accMode = .complex → ∀ m, mag m = numHypot m.re m.im) ∧
        (s.hw.accMode = .magnitude → ∀ m, mag m = m.re) ∧
        v = s.spectral.acc.map (fun c => fMul fTen (numLog s.hw.logBase
          (fDiv (mag (cDivs c (fOfNat s.cons.nchunk))) (fOfNat s.hw.chunk)))) ∧
        vmin = leastOf v ∧ vmax = greatestOf v ∧ range = fSub vmax vmin ∧
        out = v.map (fun x => if fIsFinite range = true ∧ fLt fZero range = true
          then fDiv (fSub x vmin) range else fZero) ∧
        exec .ccol s = .next { s with
          spectral := { s.spectral with
            v := v, vmin := vmin, vmax := vmax, range := range, out := out
            acc := List.replicate s.hw.chunk cZero }
          flags := if fIsFinite range = true ∧ fLt fZero range = true then s.flags
            else { s.flags with flat := true }
          cols := if s.cons.ncol < s.cfg.pixcols.toNat then s.cols ++ [out] else s.cols
          lines := if s.cons.ncol < s.cfg.pixcols.toNat
            then { s.lines with evColumn := s.lines.evColumn + 1 } else s.lines
          cons := { s.cons with
            cnt := 0, nchunk := 0, part := .none
            ncol := if s.cons.ncol < s.cfg.pixcols.toNat then s.cons.ncol + 1 else s.cons.ncol
            cexit := if s.cons.ncol + 1 = s.cfg.pixcols.toNat ∨ s.cons.ncol = s.cfg.pixcols.toNat
              then .complete else s.cons.cexit
            cstate := if s.cons.ncol + 1 = s.cfg.pixcols.toNat ∨ s.cons.ncol = s.cfg.pixcols.toNat
              then .exit else .drain } }) ∧
    (s.spectral.v.length = s.hw.chunk →
      sameButTemps (timesOps s.hw.chunk [.cdivs, .cabs] ++ [.ccol]) [.ccol] s)

/-- R230, R106, as a step lemma: where every value of every column emitted so far lies in `[0, 1]`, and the dB
values in `v` after the step are no NaN (R228), the same holds after the step, whatever the input. -/
def Obligations.ColumnsStayInUnitIntervalWhereNoLevelIsNaN : Prop :=
  ∀ s t : State, step s = .next t → columnsInUnitInterval s → noNaN t.spectral.v → columnsInUnitInterval t

/-- R229: `vmin` and `vmax` are the least and the greatest of the values, with `-inf` below every finite
one; in the normal case the bin that holds `vmin` gets `+0.0` and the bin that holds `vmax` gets `1.0`;
where the range is zero, infinite or no number the column is all `+0.0`. -/
def Obligations.ColumnExtremes : Prop :=
  ∀ v : List F64, v ≠ [] → noNaN v →
    leastOf v ∈ v ∧ greatestOf v ∈ v ∧
    (∀ x ∈ v, fLe (leastOf v) x = true ∧ fLe x (greatestOf v) = true) ∧
    (rangeIsNormal (fSub (greatestOf v) (leastOf v)) = true →
      ∀ i : Nat,
        (v[i]? = some (leastOf v) →
          (normalise v (leastOf v) (fSub (greatestOf v) (leastOf v)))[i]? = some fZero) ∧
        (v[i]? = some (greatestOf v) →
          (normalise v (leastOf v) (fSub (greatestOf v) (leastOf v)))[i]? = some fOne)) ∧
    (rangeIsNormal (fSub (greatestOf v) (leastOf v)) = false →
      normalise v (leastOf v) (fSub (greatestOf v) (leastOf v)) = List.replicate v.length fZero)

/-- R229, R274, R326: silence. A column whose accumulated spectrum is `(+0.0, +0.0)` in every bin has the
value `-inf` in every bin, a range that is no number, and is emitted as all `+0.0` with FLAGS.FLAT set; the
consumer goes on, and `EV_FAIL` is not pulsed. (CCOL is due, its CDIVS and CABS not taken singly: log entry 3.) -/
def Obligations.SilentColumnIsFlat : Prop :=
  ∀ s : State, consAt s .column → s.spectral.bin = 0 → s.spectral.divided = false →
    s.cons.ncol + 1 < s.cfg.pixcols.toNat → 1 ≤ s.cons.nchunk → s.spectral.acc = List.replicate s.hw.chunk cZero →
    ∃ t : State, exec .ccol s = .next t ∧ t.cols = s.cols ++ [List.replicate s.hw.chunk fZero] ∧
      t.spectral.v = List.replicate s.hw.chunk fNegInf ∧ fIsNaN t.spectral.range = true ∧
      t.flags = { s.flags with flat := true } ∧ t.cons.cstate = .drain ∧
      t.lines.evFail = s.lines.evFail

/-! ## The supervisor -/

/-- R250: START's tests in their order; a refused START changes the one flag, gives the pulse where the rule
gives one, and changes nothing else. -/
def Obligations.StartRefusals : Prop :=
  ∀ s : State,
    (s.sup.sstate ≠ .idle →
      exec .start s = .next { s with flags := { s.flags with busy := true } }) ∧
    (s.sup.sstate = .idle →
      (s.regs.pixcols = 0#32 ∨
        (layoutBps s.regs.layout).toNat ∉ [1, 2, 3, 4] ∨ layoutNch s.regs.layout = 0#8 ∨
        (layoutBpf s.regs.layout).toNat <
          (layoutBps s.regs.layout).toNat * (layoutNch s.regs.layout).toNat →
        exec .start s = .next { s with
          flags := { s.flags with cfgErr := true }
          lines := { s.lines with evFail := s.lines.evFail + 1 } }) ∧
      (s.regs.pixcols ≠ 0#32 → (layoutBps s.regs.layout).toNat ∈ [1, 2, 3, 4] →
        layoutNch s.regs.layout ≠ 0#8 →
        (layoutBps s.regs.layout).toNat * (layoutNch s.regs.layout).toNat ≤
          (layoutBpf s.regs.layout).toNat →
        (s.src.isOpen = false → exec .start s = .next { s with
          flags := { s.flags with decodeFail := true }
          lines := { s.lines with evFail := s.lines.evFail + 1 } }) ∧
        (s.src.isOpen = true → ∃ t, exec .start s = .next t ∧ t.sup.sstate = .run)))

/-- R251: an accepted START. Every assignment of the rule; `spc` is the exact ceiling; what the rule does
not name keeps its value: the registers and the stream; the scratch and the temporaries, which R53 lets be
anything, by the model's choice (log entry 19); but for the answer of an earlier fetch, which is dropped (log
entry 11), and that no PSTEP or CSTEP is under way (log entry 3). -/
def Obligations.StartBuildsContext : Prop :=
  (∀ s : State, s.sup.sstate = .idle → configLegal s.regs.pixcols s.regs.layout = true →
    s.src.isOpen = true →
    ∃ (spc : Nat) (m : Memory),
      exec .start s = .next { s with
        cols := []
        flags := { flat := false, decodeFail := false, badCmd := false, busy := false, cfgErr := false,
                   expired := false }
        cfg := { pixcols := s.regs.pixcols, total := s.regs.total, rate := s.regs.rate
                 bps := s.regs.layout.extractLsb' 0 3, be := s.regs.layout.getLsbD 3
                 nch := s.regs.layout.extractLsb' 4 8, bpf := s.regs.layout.extractLsb' 12 16 }
        sup := { sstate := .run, running := true, pabort := false, cabort := false, timerArmed := false
                 spc := spc }
        ring := m
        hand := { position := 0, workerDone := false }
        prod := { pstate := .run, pexit := .none, wr := 0, run := 0, ppend := 0, nframes := 0
                  fetched := none, smp := s.prod.smp, part := .none }
        cons := { cstate := .drain, cexit := .none, rd := 0, lim := 0, prev := 0, cnt := 0, nchunk := 0
                  ncol := 0, part := .none }
        spectral := { s.spectral with acc := List.replicate s.hw.chunk cZero } } ∧
      (∀ a, m.read a = fZero) ∧
      s.regs.total.toNat ≤ spc * s.regs.pixcols.toNat ∧
      (∀ n, s.regs.total.toNat ≤ n * s.regs.pixcols.toNat → spc ≤ n)) ∧
  samplesPerColumn 44100 100 = 441 ∧ samplesPerColumn 44101 100 = 442 ∧
  (∀ p, 1 ≤ p → samplesPerColumn 0 p = 0)

/-- R252: STOP, by state. R282 f, R329: a PSTEP and a CSTEP that are being taken part by part are finished first,
wherever they stand: the STOP leads where taking the parts still due, one after the other, and then the STOP
leads, and none is under way once `running` is clear (log entry 3). -/
def Obligations.StopResult : Prop :=
  ∀ s : State,
    (s.sup.sstate = .run → s.prod.part = .none → s.cons.part = .none →
      exec .stop s = .next { s with sup := { s.sup with
        running := false, timerArmed := true, sstate := .stopping } }) ∧
    (Inv s → s.sup.sstate = .run → ∃ u : State,
      runOps (prodLeft s.prod.part ++ consLeft s) s = .next u ∧ u.prod.part = .none ∧ u.cons.part = .none ∧
      exec .stop s = .next { u with sup := { s.sup with
        running := false, timerArmed := true, sstate := .stopping } }) ∧
    (s.sup.sstate = .idle ∨ s.sup.sstate = .stopping ∨ s.sup.sstate = .aborting →
      exec .stop s = .next s)

/-- R254, R255: EXPIRE sets the latch of each live agent, records EXPIRED and goes on to S_ABORTING,
whenever it is enabled, with no reference to time. JOIN disarms the timer and moves the three state
registers to idle; everything else, the exit codes, FLAGS, the columns and the context among it, keeps its
value. -/
def Obligations.ExpireAndJoinResult : Prop :=
  opcode .expire = 0x08#8 ∧ opcode .join = 0x09#8 ∧
  (∀ s : State, s.sup.sstate = .stopping → s.prod.pstate ≠ .exit ∨ s.cons.cstate ≠ .exit →
    exec .expire s = .next { s with
      flags := { s.flags with expired := true }
      sup := { s.sup with
        pabort := if s.prod.pstate = .exit then s.sup.pabort else true
        cabort := if s.cons.cstate = .exit then s.sup.cabort else true
        sstate := .aborting } }) ∧
  (∀ s : State, s.sup.sstate = .stopping ∨ s.sup.sstate = .aborting →
    s.prod.pstate = .exit → s.cons.cstate = .exit →
    exec .join s = .next { s with
      sup := { s.sup with timerArmed := false, sstate := .idle }
      prod := { s.prod with pstate := .idle }
      cons := { s.cons with cstate := .idle } })

/-! ## The whole machine -/

/-- The model's own choice (log entries 2, 3, 11, 29 and 30), after R14 and R27: a step that is not enabled
changes nothing, for every operation with an enabling condition. With it, R294: the FFT engine and the complex
unit do nothing outside a CCHUNK or a CCOL; and R296: in S_IDLE no operation but START changes anything. -/
def Obligations.StepsNotEnabledChangeNothing : Prop :=
  ∀ s : State,
    (¬ prodWorks s → ∀ i ∈ [Instr.rbwr, .pfetch, .pdecode, .pstep, .peos, .pfail], exec i s = .next s) ∧
    (s.prod.part ≠ .none → ∀ i ∈ [Instr.pfetch, .pdecode, .peos, .pfail], exec i s = .next s) ∧
    (s.prod.part ≠ .decoded → exec .rbwr s = .next s) ∧ (s.prod.part = .decoded → exec .pstep s = .next s) ∧
    (s.prod.fetched ≠ none → exec .pfetch s = .next s) ∧
    ((∀ f, s.prod.fetched ≠ some (.frame f)) → exec .pdecode s = .next s) ∧
    ((∀ f, s.prod.fetched ≠ some (.frame f)) → s.prod.part = .none → exec .pstep s = .next s) ∧
    (s.prod.fetched ≠ some .eos → exec .peos s = .next s) ∧
    (s.prod.fetched ≠ some .fail → exec .pfail s = .next s) ∧
    (¬ prodWaits s → exec .signal s = .next s) ∧
    (s.prod.pstate ≠ .run → ¬ prodWaits s → exec .pexit s = .next s) ∧
    (¬ prodCancelled s → exec .pexit s = .next s) ∧
    (¬ consWorks s → ∀ i ∈ [Instr.rbrd, .rbwin, .cstep, .window, .acc, .cchunk, .ccol],
      exec i s = .next s) ∧
    (s.cons.part ≠ .none → exec .rbrd s = .next s) ∧
    (s.cons.part ≠ .none → s.cons.cstate ≠ .await → exec .await s = .next s) ∧
    (s.cons.part ≠ .none → s.cons.part ≠ .taken → exec .cstep s = .next s) ∧
    (s.cons.part ≠ .chunk → exec .rbwin s = .next s) ∧
    (s.cons.part ≠ .gathered → exec .window s = .next s) ∧
    (s.cons.part ≠ .transformed → exec .acc s = .next s) ∧
    (s.cons.part ≠ .chunk → s.cons.part ≠ .accumulated → exec .cchunk s = .next s) ∧
    (s.cons.part ≠ .column ∨ s.spectral.divided = true ∨
      (s.spectral.bin ≠ 0 ∧ s.spectral.bin ≠ s.hw.chunk) → exec .ccol s = .next s) ∧
    ((s.cons.rd : Int) = s.cons.lim → exec .rbrd s = .next s) ∧
    ((s.cons.rd : Int) = s.cons.lim → s.cons.part = .none → exec .cstep s = .next s) ∧
    (s.cons.cstate ≠ .drain → s.cons.cstate ≠ .await → exec .cexit s = .next s ∧ exec .await s = .next s) ∧
    (¬ consCancelled s → exec .cexit s = .next s) ∧
    (s.sup.sstate ≠ .stopping → exec .expire s = .next s) ∧
    (s.prod.pstate = .exit → s.cons.cstate = .exit → exec .expire s = .next s) ∧
    (s.prod.pstate ≠ .exit ∨ s.cons.cstate ≠ .exit → exec .join s = .next s) ∧
    (s.sup.sstate ≠ .stopping → s.sup.sstate ≠ .aborting → exec .join s = .next s) ∧
    (¬ consAt s .windowed → ∀ i ∈ [Instr.fft, .bitrev, .twid, .bfly, .bfpass, .cmul, .cadd, .csub],
      exec i s = .next s) ∧
    (¬ engineAt s .idle → exec .bitrev s = .next s) ∧
    (¬ engineAt s .idle → ¬ (engineAt s .pass ∧ s.hw.chunk < s.fft.l) → exec .fft s = .next s) ∧
    (¬ (engineAt s .pass ∧ passLegal s.hw.chunk s.fft.l) →
      exec .twid s = .next s ∧
      (¬ (engineAt s .ready ∧ s.fft.k = s.hw.chunk) → exec .bfpass s = .next s)) ∧
    (¬ (engineAt s .ready ∧ bflyDue s) →
      (¬ engineAt s .difference → exec .bfly s = .next s) ∧ (¬ engineAt s .advance → exec .cmul s = .next s)) ∧
    (¬ engineAt s .product → exec .cadd s = .next s) ∧ (¬ engineAt s .sum → exec .csub s = .next s) ∧
    (¬ consAt s .column ∨ s.hw.chunk ≤ s.spectral.bin →
      exec .cdivs s = .next s ∧ exec .cabs s = .next s) ∧
    (s.spectral.divided = true → exec .cdivs s = .next s) ∧ (s.spectral.divided = false → exec .cabs s = .next s) ∧
    (s.cons.part = .none ∨ s.cons.part = .taken → ∀ i ∈ [Instr.cmul, .cadd, .csub, .cdivs, .cabs, .carg, .fft,
      .bitrev, .twid, .bfly, .bfpass], exec i s = .next s) ∧
    (Inv s → s.sup.sstate = .idle → ∀ i : Instr, i ≠ .start → exec i s = .next s)

/-- R39: a flag once set stays set under every operation, an accepted START apart, which clears all; and no
operation reads a flag to decide anything: from states that differ in FLAGS alone every operation leads to
states that differ in FLAGS alone. -/
def Obligations.FlagsStickyAndNeverRead : Prop :=
  (∀ (i : Instr) (s t : State), exec i s = .next t → i ≠ .start ∨ s.sup.sstate ≠ .idle →
    (s.flags.flat = true → t.flags.flat = true) ∧
    (s.flags.decodeFail = true → t.flags.decodeFail = true) ∧
    (s.flags.badCmd = true → t.flags.badCmd = true) ∧ (s.flags.busy = true → t.flags.busy = true) ∧
    (s.flags.cfgErr = true → t.flags.cfgErr = true) ∧ (s.flags.expired = true → t.flags.expired = true)) ∧
  (∀ (i : Instr) (s t : State) (f : Machine.Flags), exec i s = .next t →
    ∃ g : Machine.Flags, exec i (s.setFlags f) = .next (t.setFlags g))

/-- R27 with R26 and R38: the three state registers move along the listed edges only, and an exit code,
once written, holds until the next START. STOP itself moves `sstate` alone; the edges of PROD and CONS listed for
it are those of a PSTEP or CSTEP under way that it finishes first (log entry 3). -/
def Obligations.AgentsMoveAlongListedEdges : Prop :=
  ∀ (i : Instr) (s t : State), Inv s → exec i s = .next t →
    (t.sup.sstate = s.sup.sstate ∨ (i, s.sup.sstate, t.sup.sstate) ∈
      [(Instr.start, SState.idle, SState.run), (.stop, .run, .stopping), (.expire, .stopping, .aborting),
       (.join, .stopping, .idle), (.join, .aborting, .idle)]) ∧
    (t.prod.pstate = s.prod.pstate ∨ (i, s.prod.pstate, t.prod.pstate) ∈
      [(Instr.start, PState.idle, PState.run), (.pstep, .run, .sigWait), (.stop, .run, .sigWait),
       (.peos, .run, .sigWaitLast), (.peos, .run, .sigWaitEnd), (.signal, .sigWait, .run),
       (.signal, .sigWaitLast, .sigWaitEnd), (.signal, .sigWaitEnd, .exit), (.signal, .sigWait, .exit), (.signal, .sigWaitLast, .exit),
       (.pfail, .run, .exit), (.pexit, .run, .exit), (.pexit, .sigWait, .exit),
       (.pexit, .sigWaitLast, .exit), (.pexit, .sigWaitEnd, .exit), (.join, .exit, .idle)]) ∧
    (t.cons.cstate = s.cons.cstate ∨ (i, s.cons.cstate, t.cons.cstate) ∈
      [(Instr.start, CState.idle, CState.drain), (.await, .drain, .await), (.await, .await, .drain),
       (.await, .await, .exit), (.cstep, .drain, .exit), (.ccol, .drain, .exit), (.stop, .drain, .exit),
       (.cexit, .drain, .exit), (.cexit, .await, .exit), (.join, .exit, .idle)]) ∧
    (i = .stop → (s.prod.part = .none → t.prod.pstate = s.prod.pstate) ∧
      (s.cons.part = .none → t.cons.cstate = s.cons.cstate)) ∧
    (i ≠ .start → s.prod.pexit ≠ .none → t.prod.pexit = s.prod.pexit) ∧
    (i ≠ .start → s.cons.cexit ≠ .none → t.cons.cexit = s.cons.cexit)

/-- R51, R88: every step of the machine, whatever the input, keeps the columns emitted so far as they are
and in their order; only an accepted START, which empties the log, does not. The pulses of EV_COLUMN grow
with the log, by one each. A read of a value of a column below `ncol` answers that value and changes nothing in
the block (the field that holds the answer is the model's: log entry 14). -/
def Obligations.ColumnLogOnlyGrows : Prop :=
  (∀ s t : State, step s = .next t →
    (s.cols <+: t.cols ∧ t.cols.length + s.lines.evColumn = s.cols.length + t.lines.evColumn) ∨
    (s.sup.sstate = .idle ∧ t.sup.sstate = .run ∧ t.cols = [])) ∧
  ∀ (s : State) (n b : Nat) (col : List F64) (x : F64) (rest : List Input),
    s.inputs = .readColumn n b :: rest → n < s.cons.ncol → b < s.hw.chunk →
    s.cols[n]? = some col → col[b]? = some x →
    step s = .next { s with inputs := rest, port := { data := x } }

/-- R44, R86: while a run lasts its configuration is constant, and with it the registers it was latched
from, `spc` and the parameters. -/
def Obligations.ConfigurationFixedInARun : Prop :=
  ∀ s t : State, s.sup.sstate ≠ .idle → step s = .next t →
    t.cfg = s.cfg ∧ t.regs = s.regs ∧ t.sup.spc = s.sup.spc ∧ t.hw = s.hw

/-- R282 b, R329: from the moment `running` is clear no sample is written or consumed, nothing is published
and no column appears: `ncol`, `cols`, `wr`, `rd`, `position` and the ring are frozen under every operation
(a START that is refused among them). -/
def Obligations.FrozenOnceStopped : Prop :=
  ∀ (i : Instr) (s t : State), Inv s → s.sup.running = false → i ≠ .start ∨ s.sup.sstate ≠ .idle →
    exec i s = .next t →
    t.cols = s.cols ∧ t.cons.ncol = s.cons.ncol ∧ t.prod.wr = s.prod.wr ∧ t.cons.rd = s.cons.rd ∧
    t.hand = s.hand ∧ t.ring = s.ring ∧ t.prod.nframes = s.prod.nframes ∧ t.src = s.src ∧
    t.sup.running = false

/-- R258: the stop path. After STOP, whatever finite sequence of operations other than START follows, each
agent's exit and JOIN still lead to S_IDLE with both agents idle, the timer disarmed and the columns as
STOP left them: those before it, and the one of a CSTEP under way that it finished, if any (R329, log entry 3). -/
def Obligations.StopPathReachesIdle : Prop :=
  ∀ (s : State) (ops : List Instr), Inv s → s.sup.sstate ≠ .idle → Instr.start ∉ ops →
    ∃ u t : State, exec .stop s = .next u ∧ runOps (ops ++ [.pexit, .cexit, .join]) u = .next t ∧
      t.sup.sstate = .idle ∧ t.prod.pstate = .idle ∧ t.cons.cstate = .idle ∧
      t.sup.timerArmed = false ∧ t.sup.running = false ∧ t.cols = u.cols ∧
      s.cols <+: u.cols ∧ (s.cons.part = .none → u.cols = s.cols)

/-- R210, R323: once CONS has gone with `workerDone` clear, no operation but an accepted START sets it
again, and a PROD in a SIGNAL wait stays there as long as no cancellation comes. -/
def Obligations.ProducerBlockedOnceConsumerGone : Prop :=
  ∀ (i : Instr) (s t : State), Inv s → i ≠ .start → exec i s = .next t →
    s.cons.cstate = .exit ∨ s.cons.cstate = .idle → s.hand.workerDone = false →
    t.hand.workerDone = false ∧ (t.cons.cstate = .exit ∨ t.cons.cstate = .idle) ∧
    (prodWaits s → s.sup.sstate = .run → s.sup.running = true → s.sup.pabort = false →
      t.prod.pstate = s.prod.pstate ∧ t.prod.pexit = s.prod.pexit)

/-- Every step keeps the structural invariant, whatever the input. -/
def Obligations.StepKeepsInvariant : Prop :=
  ∀ s t : State, Inv s → step s = .next t → Inv t

/-- R82, R335: PROD's steps that do not go through the handoff slot (poll, fetch, sample, end, failure, and the
parts of PSTEP) and CONS's steps (the parts of CSTEP and the operations of its units among them) may be taken in
either order: the same state results. -/
def Obligations.ProducerAndConsumerCommute : Prop :=
  ∀ (s : State) (p c : Instr), Inv s → HandoffInv s → p ∈ prodSteps → c ∈ consSteps →
    ∃ t : State, runOps [p, c] s = .next t ∧ runOps [c, p] s = .next t
end

