-- ==== Sys2Proof/Laws/Memory.lean ====
section
/-! SUPPORT. The laws of the ring: read after write, the canonical form kept, equal contents equal data. -/

namespace Sys2Proof.Machine

@[simp] theorem Memory.read_nil (a : Nat) : Memory.read [] a = ringFill := rfl

@[simp] theorem Memory.read_cons (k : Nat) (v : F64) (m : Memory) (a : Nat) :
    Memory.read ((k, v) :: m) a = if k = a then v else m.read a := rfl

@[simp] theorem Memory.wfFrom_nil (lo : Nat) : Memory.wfFrom lo [] = true := rfl

theorem Memory.wfFrom_cons (lo k : Nat) (v : F64) (m : Memory) :
    Memory.wfFrom lo ((k, v) :: m) = true ↔ lo ≤ k ∧ v ≠ ringFill ∧ Memory.wfFrom (k + 1) m = true := by
  simp [Memory.wfFrom, and_assoc]

/-- The canonical form from a slot on is the canonical form from every lower one. -/
theorem Memory.wfFrom_mono {lo lo' : Nat} (h : lo' ≤ lo) {m : Memory} (hm : m.wfFrom lo = true) :
    m.wfFrom lo' = true := by
  cases m with
  | nil => rfl
  | cons e m =>
    obtain ⟨k, v⟩ := e
    rw [wfFrom_cons] at hm ⊢
    exact ⟨h.trans hm.1, hm.2⟩

/-- Below the first slot of the canonical form every slot reads the fill. -/
theorem Memory.read_of_lt {m : Memory} : ∀ {lo a : Nat}, m.wfFrom lo = true → a < lo → m.read a = ringFill := by
  induction m with
  | nil => intros; rfl
  | cons e m ih =>
    obtain ⟨k, v⟩ := e
    intro lo a hm ha
    rw [wfFrom_cons] at hm
    have hne : ¬ k = a := by omega
    show (if k = a then v else Memory.read m a) = ringFill
    rw [if_neg hne]
    exact ih hm.2.2 (by omega)

/-- A slot reads what was last written to it. -/
theorem Memory.read_write_same {m : Memory} (a : Nat) (x : F64) :
    ∀ {lo : Nat}, m.wfFrom lo = true → (m.write a x).read a = x := by
  induction m with
  | nil =>
    intro lo _
    by_cases hx : x = ringFill <;> simp [Memory.write, hx]
  | cons e m ih =>
    obtain ⟨k, v⟩ := e
    intro lo hm
    rw [wfFrom_cons] at hm
    by_cases h1 : a < k
    · by_cases hx : x = ringFill
      · have hne : ¬ k = a := by omega
        have hrd := read_of_lt hm.2.2 (show a < k + 1 by omega)
        simp [Memory.write, h1, hx, hne, hrd]
      · simp [Memory.write, h1, hx]
    · by_cases h2 : a = k
      · by_cases hx : x = ringFill
        · have hrd := read_of_lt hm.2.2 (show a < k + 1 by omega)
          simp [Memory.write, h2, hx] at hrd ⊢
          exact h2 ▸ hrd
        · simp [Memory.write, h2, hx]
      · have hne : ¬ k = a := fun h => h2 h.symm
        simp [Memory.write, h1, h2, hne, ih hm.2.2]

/-- A write leaves what every other slot reads. -/
theorem Memory.read_write_ne (m : Memory) {a b : Nat} (x : F64) (hab : b ≠ a) :
    (m.write a x).read b = m.read b := by
  induction m with
  | nil =>
    have h : ¬ a = b := fun h => hab h.symm
    by_cases hx : x = ringFill <;> simp [Memory.write, hx, h]
  | cons e m ih =>
    obtain ⟨k, v⟩ := e
    have h : ¬ a = b := fun h => hab h.symm
    by_cases h1 : a < k
    · by_cases hx : x = ringFill <;> simp [Memory.write, h1, hx, h]
    · by_cases h2 : a = k
      · have h3 : ¬ k = b := fun h => hab (h2 ▸ h.symm)
        by_cases hx : x = ringFill <;> simp [Memory.write, h2, hx, h3]
      · simp [Memory.write, h1, h2, ih]

/-- A write keeps the canonical form. -/
theorem Memory.write_wfFrom {m : Memory} (a : Nat) (x : F64) :
    ∀ {lo : Nat}, lo ≤ a → m.wfFrom lo = true → (m.write a x).wfFrom lo = true := by
  induction m with
  | nil =>
    intro lo hlo _
    by_cases hx : x = ringFill <;> simp [Memory.write, hx, wfFrom_cons, hlo]
  | cons e m ih =>
    obtain ⟨k, v⟩ := e
    intro lo hlo hm
    have hm' := (wfFrom_cons lo k v m).1 hm
    by_cases h1 : a < k
    · by_cases hx : x = ringFill
      · simpa [Memory.write, h1, hx] using hm
      · simp [Memory.write, h1, hx, wfFrom_cons, hlo, hm']
    · by_cases h2 : a = k
      · subst h2
        by_cases hx : x = ringFill
        · simpa [Memory.write, hx] using wfFrom_mono (show lo ≤ a + 1 by omega) hm'.2.2
        · simp [Memory.write, hx, wfFrom_cons, hm'.1, hm'.2.2]
      · have := ih (lo := k + 1) (by omega) hm'.2.2
        simp [Memory.write, h1, h2, wfFrom_cons, hm'.1, hm'.2.1, this]

/-- A write keeps the canonical form. -/
theorem Memory.write_wf {m : Memory} (a : Nat) (x : F64) (h : m.wf = true) : (m.write a x).wf = true :=
  Memory.write_wfFrom a x (Nat.zero_le a) h

/-- A write below a bound keeps the listed slots below it. -/
theorem Memory.write_below {m : Memory} {n a : Nat} (x : F64) (ha : a < n) (h : m.below n = true) :
    (m.write a x).below n = true := by
  induction m with
  | nil => by_cases hx : x = ringFill <;> simp [Memory.write, Memory.below, hx, ha]
  | cons e m ih =>
    obtain ⟨k, v⟩ := e
    have hc : k < n ∧ Memory.below n m = true := by simpa [Memory.below] using h
    by_cases h1 : a < k
    · by_cases hx : x = ringFill
      · simpa [Memory.write, h1, hx] using h
      · simpa [Memory.write, h1, hx, Memory.below, ha] using h
    · by_cases h2 : a = k
      · by_cases hx : x = ringFill
        · simpa [Memory.write, h1, h2, hx] using hc.2
        · simpa [Memory.write, h2, hx, Memory.below] using h
      · have := ih hc.2
        simp only [Memory.write, h1, h2, if_false]
        simpa [Memory.below, hc.1] using this

/-- In the canonical form, equal contents are equal data. -/
theorem Memory.ext_of_read {m : Memory} :
    ∀ {m' : Memory} {lo : Nat}, m.wfFrom lo = true → m'.wfFrom lo = true → (∀ a, m.read a = m'.read a) → m = m' := by
  induction m with
  | nil =>
    intro m' lo _ hm' h
    cases m' with
    | nil => rfl
    | cons e m' =>
      obtain ⟨k, v⟩ := e
      have := h k
      rw [wfFrom_cons] at hm'
      simp at this
      exact absurd this.symm hm'.2.1
  | cons e m ih =>
    obtain ⟨k, v⟩ := e
    intro m' lo hm hm' h
    rw [wfFrom_cons] at hm
    cases m' with
    | nil =>
      have := h k
      simp at this
      exact absurd this hm.2.1
    | cons e' m' =>
      obtain ⟨k', v'⟩ := e'
      rw [wfFrom_cons] at hm'
      have hk : k = k' := by
        rcases Nat.lt_trichotomy k k' with hlt | heq | hgt
        · have h1 := h k
          have h2 : ¬ k' = k := by omega
          rw [Memory.read_cons, Memory.read_cons, if_pos rfl, if_neg h2,
            read_of_lt hm'.2.2 (show k < k' + 1 by omega)] at h1
          exact absurd h1 hm.2.1
        · exact heq
        · have h1 := h k'
          have h2 : ¬ k = k' := by omega
          rw [Memory.read_cons, Memory.read_cons, if_pos rfl, if_neg h2,
            read_of_lt hm.2.2 (show k' < k + 1 by omega)] at h1
          exact absurd h1.symm hm'.2.1
      have hv : v = v' := by
        have h1 := h k
        rw [Memory.read_cons, Memory.read_cons, if_pos rfl, if_pos hk.symm] at h1
        exact h1
      have hm'' : Memory.wfFrom (k + 1) m' = true := by rw [hk]; exact hm'.2.2
      have htail : m = m' := by
        apply ih hm.2.2 hm''
        intro a
        by_cases ha : k = a
        · rw [read_of_lt hm.2.2 (by omega), read_of_lt hm'' (by omega)]
        · have ha' : ¬ k' = a := by omega
          have h1 := h a
          rwa [Memory.read_cons, Memory.read_cons, if_neg ha, if_neg ha'] at h1
      exact List.cons_eq_cons.2 ⟨Prod.ext hk hv, htail⟩

/-- Every listed slot is below a bound: above it every slot reads the fill. -/
theorem Memory.read_of_below {m : Memory} {n a : Nat} (h : m.below n = true) (ha : n ≤ a) :
    m.read a = ringFill := by
  induction m with
  | nil => rfl
  | cons e m ih =>
    obtain ⟨k, v⟩ := e
    have hc : k < n ∧ Memory.below n m = true := by simpa [Memory.below] using h
    have hne : ¬ k = a := by omega
    rw [Memory.read_cons, if_neg hne]
    exact ih hc.2

end Sys2Proof.Machine
end

