-- ==== Sys2Proof/Laws/State.lean ====
section
/-! SUPPORT. One lemma per field per update of the state: what each `State.set<Field>`, and each of
`prodTo`, `consTo`, `fftTo`, `unitTo`, leaves in each field. -/

namespace Sys2Proof.Machine

variable (s : State)

/-! ## `setRegs` -/

@[simp] theorem setRegs_hw (x : HostRegs) : (s.setRegs x).hw = s.hw := rfl
@[simp] theorem setRegs_regs (x : HostRegs) : (s.setRegs x).regs = x := rfl
@[simp] theorem setRegs_cfg (x : HostRegs) : (s.setRegs x).cfg = s.cfg := rfl
@[simp] theorem setRegs_sup (x : HostRegs) : (s.setRegs x).sup = s.sup := rfl
@[simp] theorem setRegs_hand (x : HostRegs) : (s.setRegs x).hand = s.hand := rfl
@[simp] theorem setRegs_prod (x : HostRegs) : (s.setRegs x).prod = s.prod := rfl
@[simp] theorem setRegs_cons (x : HostRegs) : (s.setRegs x).cons = s.cons := rfl
@[simp] theorem setRegs_spectral (x : HostRegs) : (s.setRegs x).spectral = s.spectral := rfl
@[simp] theorem setRegs_cu (x : HostRegs) : (s.setRegs x).cu = s.cu := rfl
@[simp] theorem setRegs_fft (x : HostRegs) : (s.setRegs x).fft = s.fft := rfl
@[simp] theorem setRegs_ring (x : HostRegs) : (s.setRegs x).ring = s.ring := rfl
@[simp] theorem setRegs_cols (x : HostRegs) : (s.setRegs x).cols = s.cols := rfl
@[simp] theorem setRegs_flags (x : HostRegs) : (s.setRegs x).flags = s.flags := rfl
@[simp] theorem setRegs_lines (x : HostRegs) : (s.setRegs x).lines = s.lines := rfl
@[simp] theorem setRegs_port (x : HostRegs) : (s.setRegs x).port = s.port := rfl
@[simp] theorem setRegs_src (x : HostRegs) : (s.setRegs x).src = s.src := rfl
@[simp] theorem setRegs_inputs (x : HostRegs) : (s.setRegs x).inputs = s.inputs := rfl
@[simp] theorem setRegs_tick (x : HostRegs) : (s.setRegs x).tick = s.tick := rfl

/-! ## `setSup` -/

@[simp] theorem setSup_hw (x : Supervisor) : (s.setSup x).hw = s.hw := rfl
@[simp] theorem setSup_regs (x : Supervisor) : (s.setSup x).regs = s.regs := rfl
@[simp] theorem setSup_cfg (x : Supervisor) : (s.setSup x).cfg = s.cfg := rfl
@[simp] theorem setSup_sup (x : Supervisor) : (s.setSup x).sup = x := rfl
@[simp] theorem setSup_hand (x : Supervisor) : (s.setSup x).hand = s.hand := rfl
@[simp] theorem setSup_prod (x : Supervisor) : (s.setSup x).prod = s.prod := rfl
@[simp] theorem setSup_cons (x : Supervisor) : (s.setSup x).cons = s.cons := rfl
@[simp] theorem setSup_spectral (x : Supervisor) : (s.setSup x).spectral = s.spectral := rfl
@[simp] theorem setSup_cu (x : Supervisor) : (s.setSup x).cu = s.cu := rfl
@[simp] theorem setSup_fft (x : Supervisor) : (s.setSup x).fft = s.fft := rfl
@[simp] theorem setSup_ring (x : Supervisor) : (s.setSup x).ring = s.ring := rfl
@[simp] theorem setSup_cols (x : Supervisor) : (s.setSup x).cols = s.cols := rfl
@[simp] theorem setSup_flags (x : Supervisor) : (s.setSup x).flags = s.flags := rfl
@[simp] theorem setSup_lines (x : Supervisor) : (s.setSup x).lines = s.lines := rfl
@[simp] theorem setSup_port (x : Supervisor) : (s.setSup x).port = s.port := rfl
@[simp] theorem setSup_src (x : Supervisor) : (s.setSup x).src = s.src := rfl
@[simp] theorem setSup_inputs (x : Supervisor) : (s.setSup x).inputs = s.inputs := rfl
@[simp] theorem setSup_tick (x : Supervisor) : (s.setSup x).tick = s.tick := rfl

/-! ## `setHand` -/

@[simp] theorem setHand_hw (x : Handoff) : (s.setHand x).hw = s.hw := rfl
@[simp] theorem setHand_regs (x : Handoff) : (s.setHand x).regs = s.regs := rfl
@[simp] theorem setHand_cfg (x : Handoff) : (s.setHand x).cfg = s.cfg := rfl
@[simp] theorem setHand_sup (x : Handoff) : (s.setHand x).sup = s.sup := rfl
@[simp] theorem setHand_hand (x : Handoff) : (s.setHand x).hand = x := rfl
@[simp] theorem setHand_prod (x : Handoff) : (s.setHand x).prod = s.prod := rfl
@[simp] theorem setHand_cons (x : Handoff) : (s.setHand x).cons = s.cons := rfl
@[simp] theorem setHand_spectral (x : Handoff) : (s.setHand x).spectral = s.spectral := rfl
@[simp] theorem setHand_cu (x : Handoff) : (s.setHand x).cu = s.cu := rfl
@[simp] theorem setHand_fft (x : Handoff) : (s.setHand x).fft = s.fft := rfl
@[simp] theorem setHand_ring (x : Handoff) : (s.setHand x).ring = s.ring := rfl
@[simp] theorem setHand_cols (x : Handoff) : (s.setHand x).cols = s.cols := rfl
@[simp] theorem setHand_flags (x : Handoff) : (s.setHand x).flags = s.flags := rfl
@[simp] theorem setHand_lines (x : Handoff) : (s.setHand x).lines = s.lines := rfl
@[simp] theorem setHand_port (x : Handoff) : (s.setHand x).port = s.port := rfl
@[simp] theorem setHand_src (x : Handoff) : (s.setHand x).src = s.src := rfl
@[simp] theorem setHand_inputs (x : Handoff) : (s.setHand x).inputs = s.inputs := rfl
@[simp] theorem setHand_tick (x : Handoff) : (s.setHand x).tick = s.tick := rfl

/-! ## `setProd` -/

@[simp] theorem setProd_hw (x : Producer) : (s.setProd x).hw = s.hw := rfl
@[simp] theorem setProd_regs (x : Producer) : (s.setProd x).regs = s.regs := rfl
@[simp] theorem setProd_cfg (x : Producer) : (s.setProd x).cfg = s.cfg := rfl
@[simp] theorem setProd_sup (x : Producer) : (s.setProd x).sup = s.sup := rfl
@[simp] theorem setProd_hand (x : Producer) : (s.setProd x).hand = s.hand := rfl
@[simp] theorem setProd_prod (x : Producer) : (s.setProd x).prod = x := rfl
@[simp] theorem setProd_cons (x : Producer) : (s.setProd x).cons = s.cons := rfl
@[simp] theorem setProd_spectral (x : Producer) : (s.setProd x).spectral = s.spectral := rfl
@[simp] theorem setProd_cu (x : Producer) : (s.setProd x).cu = s.cu := rfl
@[simp] theorem setProd_fft (x : Producer) : (s.setProd x).fft = s.fft := rfl
@[simp] theorem setProd_ring (x : Producer) : (s.setProd x).ring = s.ring := rfl
@[simp] theorem setProd_cols (x : Producer) : (s.setProd x).cols = s.cols := rfl
@[simp] theorem setProd_flags (x : Producer) : (s.setProd x).flags = s.flags := rfl
@[simp] theorem setProd_lines (x : Producer) : (s.setProd x).lines = s.lines := rfl
@[simp] theorem setProd_port (x : Producer) : (s.setProd x).port = s.port := rfl
@[simp] theorem setProd_src (x : Producer) : (s.setProd x).src = s.src := rfl
@[simp] theorem setProd_inputs (x : Producer) : (s.setProd x).inputs = s.inputs := rfl
@[simp] theorem setProd_tick (x : Producer) : (s.setProd x).tick = s.tick := rfl

/-! ## `setCons` -/

@[simp] theorem setCons_hw (x : Consumer) : (s.setCons x).hw = s.hw := rfl
@[simp] theorem setCons_regs (x : Consumer) : (s.setCons x).regs = s.regs := rfl
@[simp] theorem setCons_cfg (x : Consumer) : (s.setCons x).cfg = s.cfg := rfl
@[simp] theorem setCons_sup (x : Consumer) : (s.setCons x).sup = s.sup := rfl
@[simp] theorem setCons_hand (x : Consumer) : (s.setCons x).hand = s.hand := rfl
@[simp] theorem setCons_prod (x : Consumer) : (s.setCons x).prod = s.prod := rfl
@[simp] theorem setCons_cons (x : Consumer) : (s.setCons x).cons = x := rfl
@[simp] theorem setCons_spectral (x : Consumer) : (s.setCons x).spectral = s.spectral := rfl
@[simp] theorem setCons_cu (x : Consumer) : (s.setCons x).cu = s.cu := rfl
@[simp] theorem setCons_fft (x : Consumer) : (s.setCons x).fft = s.fft := rfl
@[simp] theorem setCons_ring (x : Consumer) : (s.setCons x).ring = s.ring := rfl
@[simp] theorem setCons_cols (x : Consumer) : (s.setCons x).cols = s.cols := rfl
@[simp] theorem setCons_flags (x : Consumer) : (s.setCons x).flags = s.flags := rfl
@[simp] theorem setCons_lines (x : Consumer) : (s.setCons x).lines = s.lines := rfl
@[simp] theorem setCons_port (x : Consumer) : (s.setCons x).port = s.port := rfl
@[simp] theorem setCons_src (x : Consumer) : (s.setCons x).src = s.src := rfl
@[simp] theorem setCons_inputs (x : Consumer) : (s.setCons x).inputs = s.inputs := rfl
@[simp] theorem setCons_tick (x : Consumer) : (s.setCons x).tick = s.tick := rfl

/-! ## `setSpectral` -/

@[simp] theorem setSpectral_hw (x : Spectral) : (s.setSpectral x).hw = s.hw := rfl
@[simp] theorem setSpectral_regs (x : Spectral) : (s.setSpectral x).regs = s.regs := rfl
@[simp] theorem setSpectral_cfg (x : Spectral) : (s.setSpectral x).cfg = s.cfg := rfl
@[simp] theorem setSpectral_sup (x : Spectral) : (s.setSpectral x).sup = s.sup := rfl
@[simp] theorem setSpectral_hand (x : Spectral) : (s.setSpectral x).hand = s.hand := rfl
@[simp] theorem setSpectral_prod (x : Spectral) : (s.setSpectral x).prod = s.prod := rfl
@[simp] theorem setSpectral_cons (x : Spectral) : (s.setSpectral x).cons = s.cons := rfl
@[simp] theorem setSpectral_spectral (x : Spectral) : (s.setSpectral x).spectral = x := rfl
@[simp] theorem setSpectral_cu (x : Spectral) : (s.setSpectral x).cu = s.cu := rfl
@[simp] theorem setSpectral_fft (x : Spectral) : (s.setSpectral x).fft = s.fft := rfl
@[simp] theorem setSpectral_ring (x : Spectral) : (s.setSpectral x).ring = s.ring := rfl
@[simp] theorem setSpectral_cols (x : Spectral) : (s.setSpectral x).cols = s.cols := rfl
@[simp] theorem setSpectral_flags (x : Spectral) : (s.setSpectral x).flags = s.flags := rfl
@[simp] theorem setSpectral_lines (x : Spectral) : (s.setSpectral x).lines = s.lines := rfl
@[simp] theorem setSpectral_port (x : Spectral) : (s.setSpectral x).port = s.port := rfl
@[simp] theorem setSpectral_src (x : Spectral) : (s.setSpectral x).src = s.src := rfl
@[simp] theorem setSpectral_inputs (x : Spectral) : (s.setSpectral x).inputs = s.inputs := rfl
@[simp] theorem setSpectral_tick (x : Spectral) : (s.setSpectral x).tick = s.tick := rfl

/-! ## `setCu` -/

@[simp] theorem setCu_hw (x : ComplexUnit) : (s.setCu x).hw = s.hw := rfl
@[simp] theorem setCu_regs (x : ComplexUnit) : (s.setCu x).regs = s.regs := rfl
@[simp] theorem setCu_cfg (x : ComplexUnit) : (s.setCu x).cfg = s.cfg := rfl
@[simp] theorem setCu_sup (x : ComplexUnit) : (s.setCu x).sup = s.sup := rfl
@[simp] theorem setCu_hand (x : ComplexUnit) : (s.setCu x).hand = s.hand := rfl
@[simp] theorem setCu_prod (x : ComplexUnit) : (s.setCu x).prod = s.prod := rfl
@[simp] theorem setCu_cons (x : ComplexUnit) : (s.setCu x).cons = s.cons := rfl
@[simp] theorem setCu_spectral (x : ComplexUnit) : (s.setCu x).spectral = s.spectral := rfl
@[simp] theorem setCu_cu (x : ComplexUnit) : (s.setCu x).cu = x := rfl
@[simp] theorem setCu_fft (x : ComplexUnit) : (s.setCu x).fft = s.fft := rfl
@[simp] theorem setCu_ring (x : ComplexUnit) : (s.setCu x).ring = s.ring := rfl
@[simp] theorem setCu_cols (x : ComplexUnit) : (s.setCu x).cols = s.cols := rfl
@[simp] theorem setCu_flags (x : ComplexUnit) : (s.setCu x).flags = s.flags := rfl
@[simp] theorem setCu_lines (x : ComplexUnit) : (s.setCu x).lines = s.lines := rfl
@[simp] theorem setCu_port (x : ComplexUnit) : (s.setCu x).port = s.port := rfl
@[simp] theorem setCu_src (x : ComplexUnit) : (s.setCu x).src = s.src := rfl
@[simp] theorem setCu_inputs (x : ComplexUnit) : (s.setCu x).inputs = s.inputs := rfl
@[simp] theorem setCu_tick (x : ComplexUnit) : (s.setCu x).tick = s.tick := rfl

/-! ## `setFft` -/

@[simp] theorem setFft_hw (x : FftTemps) : (s.setFft x).hw = s.hw := rfl
@[simp] theorem setFft_regs (x : FftTemps) : (s.setFft x).regs = s.regs := rfl
@[simp] theorem setFft_cfg (x : FftTemps) : (s.setFft x).cfg = s.cfg := rfl
@[simp] theorem setFft_sup (x : FftTemps) : (s.setFft x).sup = s.sup := rfl
@[simp] theorem setFft_hand (x : FftTemps) : (s.setFft x).hand = s.hand := rfl
@[simp] theorem setFft_prod (x : FftTemps) : (s.setFft x).prod = s.prod := rfl
@[simp] theorem setFft_cons (x : FftTemps) : (s.setFft x).cons = s.cons := rfl
@[simp] theorem setFft_spectral (x : FftTemps) : (s.setFft x).spectral = s.spectral := rfl
@[simp] theorem setFft_cu (x : FftTemps) : (s.setFft x).cu = s.cu := rfl
@[simp] theorem setFft_fft (x : FftTemps) : (s.setFft x).fft = x := rfl
@[simp] theorem setFft_ring (x : FftTemps) : (s.setFft x).ring = s.ring := rfl
@[simp] theorem setFft_cols (x : FftTemps) : (s.setFft x).cols = s.cols := rfl
@[simp] theorem setFft_flags (x : FftTemps) : (s.setFft x).flags = s.flags := rfl
@[simp] theorem setFft_lines (x : FftTemps) : (s.setFft x).lines = s.lines := rfl
@[simp] theorem setFft_port (x : FftTemps) : (s.setFft x).port = s.port := rfl
@[simp] theorem setFft_src (x : FftTemps) : (s.setFft x).src = s.src := rfl
@[simp] theorem setFft_inputs (x : FftTemps) : (s.setFft x).inputs = s.inputs := rfl
@[simp] theorem setFft_tick (x : FftTemps) : (s.setFft x).tick = s.tick := rfl

/-! ## `setRing` -/

@[simp] theorem setRing_hw (x : Memory) : (s.setRing x).hw = s.hw := rfl
@[simp] theorem setRing_regs (x : Memory) : (s.setRing x).regs = s.regs := rfl
@[simp] theorem setRing_cfg (x : Memory) : (s.setRing x).cfg = s.cfg := rfl
@[simp] theorem setRing_sup (x : Memory) : (s.setRing x).sup = s.sup := rfl
@[simp] theorem setRing_hand (x : Memory) : (s.setRing x).hand = s.hand := rfl
@[simp] theorem setRing_prod (x : Memory) : (s.setRing x).prod = s.prod := rfl
@[simp] theorem setRing_cons (x : Memory) : (s.setRing x).cons = s.cons := rfl
@[simp] theorem setRing_spectral (x : Memory) : (s.setRing x).spectral = s.spectral := rfl
@[simp] theorem setRing_cu (x : Memory) : (s.setRing x).cu = s.cu := rfl
@[simp] theorem setRing_fft (x : Memory) : (s.setRing x).fft = s.fft := rfl
@[simp] theorem setRing_ring (x : Memory) : (s.setRing x).ring = x := rfl
@[simp] theorem setRing_cols (x : Memory) : (s.setRing x).cols = s.cols := rfl
@[simp] theorem setRing_flags (x : Memory) : (s.setRing x).flags = s.flags := rfl
@[simp] theorem setRing_lines (x : Memory) : (s.setRing x).lines = s.lines := rfl
@[simp] theorem setRing_port (x : Memory) : (s.setRing x).port = s.port := rfl
@[simp] theorem setRing_src (x : Memory) : (s.setRing x).src = s.src := rfl
@[simp] theorem setRing_inputs (x : Memory) : (s.setRing x).inputs = s.inputs := rfl
@[simp] theorem setRing_tick (x : Memory) : (s.setRing x).tick = s.tick := rfl

/-! ## `setCols` -/

@[simp] theorem setCols_hw (x : List (List F64)) : (s.setCols x).hw = s.hw := rfl
@[simp] theorem setCols_regs (x : List (List F64)) : (s.setCols x).regs = s.regs := rfl
@[simp] theorem setCols_cfg (x : List (List F64)) : (s.setCols x).cfg = s.cfg := rfl
@[simp] theorem setCols_sup (x : List (List F64)) : (s.setCols x).sup = s.sup := rfl
@[simp] theorem setCols_hand (x : List (List F64)) : (s.setCols x).hand = s.hand := rfl
@[simp] theorem setCols_prod (x : List (List F64)) : (s.setCols x).prod = s.prod := rfl
@[simp] theorem setCols_cons (x : List (List F64)) : (s.setCols x).cons = s.cons := rfl
@[simp] theorem setCols_spectral (x : List (List F64)) : (s.setCols x).spectral = s.spectral := rfl
@[simp] theorem setCols_cu (x : List (List F64)) : (s.setCols x).cu = s.cu := rfl
@[simp] theorem setCols_fft (x : List (List F64)) : (s.setCols x).fft = s.fft := rfl
@[simp] theorem setCols_ring (x : List (List F64)) : (s.setCols x).ring = s.ring := rfl
@[simp] theorem setCols_cols (x : List (List F64)) : (s.setCols x).cols = x := rfl
@[simp] theorem setCols_flags (x : List (List F64)) : (s.setCols x).flags = s.flags := rfl
@[simp] theorem setCols_lines (x : List (List F64)) : (s.setCols x).lines = s.lines := rfl
@[simp] theorem setCols_port (x : List (List F64)) : (s.setCols x).port = s.port := rfl
@[simp] theorem setCols_src (x : List (List F64)) : (s.setCols x).src = s.src := rfl
@[simp] theorem setCols_inputs (x : List (List F64)) : (s.setCols x).inputs = s.inputs := rfl
@[simp] theorem setCols_tick (x : List (List F64)) : (s.setCols x).tick = s.tick := rfl

/-! ## `setFlags` -/

@[simp] theorem setFlags_hw (x : Flags) : (s.setFlags x).hw = s.hw := rfl
@[simp] theorem setFlags_regs (x : Flags) : (s.setFlags x).regs = s.regs := rfl
@[simp] theorem setFlags_cfg (x : Flags) : (s.setFlags x).cfg = s.cfg := rfl
@[simp] theorem setFlags_sup (x : Flags) : (s.setFlags x).sup = s.sup := rfl
@[simp] theorem setFlags_hand (x : Flags) : (s.setFlags x).hand = s.hand := rfl
@[simp] theorem setFlags_prod (x : Flags) : (s.setFlags x).prod = s.prod := rfl
@[simp] theorem setFlags_cons (x : Flags) : (s.setFlags x).cons = s.cons := rfl
@[simp] theorem setFlags_spectral (x : Flags) : (s.setFlags x).spectral = s.spectral := rfl
@[simp] theorem setFlags_cu (x : Flags) : (s.setFlags x).cu = s.cu := rfl
@[simp] theorem setFlags_fft (x : Flags) : (s.setFlags x).fft = s.fft := rfl
@[simp] theorem setFlags_ring (x : Flags) : (s.setFlags x).ring = s.ring := rfl
@[simp] theorem setFlags_cols (x : Flags) : (s.setFlags x).cols = s.cols := rfl
@[simp] theorem setFlags_flags (x : Flags) : (s.setFlags x).flags = x := rfl
@[simp] theorem setFlags_lines (x : Flags) : (s.setFlags x).lines = s.lines := rfl
@[simp] theorem setFlags_port (x : Flags) : (s.setFlags x).port = s.port := rfl
@[simp] theorem setFlags_src (x : Flags) : (s.setFlags x).src = s.src := rfl
@[simp] theorem setFlags_inputs (x : Flags) : (s.setFlags x).inputs = s.inputs := rfl
@[simp] theorem setFlags_tick (x : Flags) : (s.setFlags x).tick = s.tick := rfl

/-! ## `setLines` -/

@[simp] theorem setLines_hw (x : EventLines) : (s.setLines x).hw = s.hw := rfl
@[simp] theorem setLines_regs (x : EventLines) : (s.setLines x).regs = s.regs := rfl
@[simp] theorem setLines_cfg (x : EventLines) : (s.setLines x).cfg = s.cfg := rfl
@[simp] theorem setLines_sup (x : EventLines) : (s.setLines x).sup = s.sup := rfl
@[simp] theorem setLines_hand (x : EventLines) : (s.setLines x).hand = s.hand := rfl
@[simp] theorem setLines_prod (x : EventLines) : (s.setLines x).prod = s.prod := rfl
@[simp] theorem setLines_cons (x : EventLines) : (s.setLines x).cons = s.cons := rfl
@[simp] theorem setLines_spectral (x : EventLines) : (s.setLines x).spectral = s.spectral := rfl
@[simp] theorem setLines_cu (x : EventLines) : (s.setLines x).cu = s.cu := rfl
@[simp] theorem setLines_fft (x : EventLines) : (s.setLines x).fft = s.fft := rfl
@[simp] theorem setLines_ring (x : EventLines) : (s.setLines x).ring = s.ring := rfl
@[simp] theorem setLines_cols (x : EventLines) : (s.setLines x).cols = s.cols := rfl
@[simp] theorem setLines_flags (x : EventLines) : (s.setLines x).flags = s.flags := rfl
@[simp] theorem setLines_lines (x : EventLines) : (s.setLines x).lines = x := rfl
@[simp] theorem setLines_port (x : EventLines) : (s.setLines x).port = s.port := rfl
@[simp] theorem setLines_src (x : EventLines) : (s.setLines x).src = s.src := rfl
@[simp] theorem setLines_inputs (x : EventLines) : (s.setLines x).inputs = s.inputs := rfl
@[simp] theorem setLines_tick (x : EventLines) : (s.setLines x).tick = s.tick := rfl

/-! ## `setPort` -/

@[simp] theorem setPort_hw (x : HostPort) : (s.setPort x).hw = s.hw := rfl
@[simp] theorem setPort_regs (x : HostPort) : (s.setPort x).regs = s.regs := rfl
@[simp] theorem setPort_cfg (x : HostPort) : (s.setPort x).cfg = s.cfg := rfl
@[simp] theorem setPort_sup (x : HostPort) : (s.setPort x).sup = s.sup := rfl
@[simp] theorem setPort_hand (x : HostPort) : (s.setPort x).hand = s.hand := rfl
@[simp] theorem setPort_prod (x : HostPort) : (s.setPort x).prod = s.prod := rfl
@[simp] theorem setPort_cons (x : HostPort) : (s.setPort x).cons = s.cons := rfl
@[simp] theorem setPort_spectral (x : HostPort) : (s.setPort x).spectral = s.spectral := rfl
@[simp] theorem setPort_cu (x : HostPort) : (s.setPort x).cu = s.cu := rfl
@[simp] theorem setPort_fft (x : HostPort) : (s.setPort x).fft = s.fft := rfl
@[simp] theorem setPort_ring (x : HostPort) : (s.setPort x).ring = s.ring := rfl
@[simp] theorem setPort_cols (x : HostPort) : (s.setPort x).cols = s.cols := rfl
@[simp] theorem setPort_flags (x : HostPort) : (s.setPort x).flags = s.flags := rfl
@[simp] theorem setPort_lines (x : HostPort) : (s.setPort x).lines = s.lines := rfl
@[simp] theorem setPort_port (x : HostPort) : (s.setPort x).port = x := rfl
@[simp] theorem setPort_src (x : HostPort) : (s.setPort x).src = s.src := rfl
@[simp] theorem setPort_inputs (x : HostPort) : (s.setPort x).inputs = s.inputs := rfl
@[simp] theorem setPort_tick (x : HostPort) : (s.setPort x).tick = s.tick := rfl

/-! ## `setSrc` -/

@[simp] theorem setSrc_hw (x : Source) : (s.setSrc x).hw = s.hw := rfl
@[simp] theorem setSrc_regs (x : Source) : (s.setSrc x).regs = s.regs := rfl
@[simp] theorem setSrc_cfg (x : Source) : (s.setSrc x).cfg = s.cfg := rfl
@[simp] theorem setSrc_sup (x : Source) : (s.setSrc x).sup = s.sup := rfl
@[simp] theorem setSrc_hand (x : Source) : (s.setSrc x).hand = s.hand := rfl
@[simp] theorem setSrc_prod (x : Source) : (s.setSrc x).prod = s.prod := rfl
@[simp] theorem setSrc_cons (x : Source) : (s.setSrc x).cons = s.cons := rfl
@[simp] theorem setSrc_spectral (x : Source) : (s.setSrc x).spectral = s.spectral := rfl
@[simp] theorem setSrc_cu (x : Source) : (s.setSrc x).cu = s.cu := rfl
@[simp] theorem setSrc_fft (x : Source) : (s.setSrc x).fft = s.fft := rfl
@[simp] theorem setSrc_ring (x : Source) : (s.setSrc x).ring = s.ring := rfl
@[simp] theorem setSrc_cols (x : Source) : (s.setSrc x).cols = s.cols := rfl
@[simp] theorem setSrc_flags (x : Source) : (s.setSrc x).flags = s.flags := rfl
@[simp] theorem setSrc_lines (x : Source) : (s.setSrc x).lines = s.lines := rfl
@[simp] theorem setSrc_port (x : Source) : (s.setSrc x).port = s.port := rfl
@[simp] theorem setSrc_src (x : Source) : (s.setSrc x).src = x := rfl
@[simp] theorem setSrc_inputs (x : Source) : (s.setSrc x).inputs = s.inputs := rfl
@[simp] theorem setSrc_tick (x : Source) : (s.setSrc x).tick = s.tick := rfl

/-! ## `setInputs` -/

@[simp] theorem setInputs_hw (x : List Input) : (s.setInputs x).hw = s.hw := rfl
@[simp] theorem setInputs_regs (x : List Input) : (s.setInputs x).regs = s.regs := rfl
@[simp] theorem setInputs_cfg (x : List Input) : (s.setInputs x).cfg = s.cfg := rfl
@[simp] theorem setInputs_sup (x : List Input) : (s.setInputs x).sup = s.sup := rfl
@[simp] theorem setInputs_hand (x : List Input) : (s.setInputs x).hand = s.hand := rfl
@[simp] theorem setInputs_prod (x : List Input) : (s.setInputs x).prod = s.prod := rfl
@[simp] theorem setInputs_cons (x : List Input) : (s.setInputs x).cons = s.cons := rfl
@[simp] theorem setInputs_spectral (x : List Input) : (s.setInputs x).spectral = s.spectral := rfl
@[simp] theorem setInputs_cu (x : List Input) : (s.setInputs x).cu = s.cu := rfl
@[simp] theorem setInputs_fft (x : List Input) : (s.setInputs x).fft = s.fft := rfl
@[simp] theorem setInputs_ring (x : List Input) : (s.setInputs x).ring = s.ring := rfl
@[simp] theorem setInputs_cols (x : List Input) : (s.setInputs x).cols = s.cols := rfl
@[simp] theorem setInputs_flags (x : List Input) : (s.setInputs x).flags = s.flags := rfl
@[simp] theorem setInputs_lines (x : List Input) : (s.setInputs x).lines = s.lines := rfl
@[simp] theorem setInputs_port (x : List Input) : (s.setInputs x).port = s.port := rfl
@[simp] theorem setInputs_src (x : List Input) : (s.setInputs x).src = s.src := rfl
@[simp] theorem setInputs_inputs (x : List Input) : (s.setInputs x).inputs = x := rfl
@[simp] theorem setInputs_tick (x : List Input) : (s.setInputs x).tick = s.tick := rfl

/-! ## `setTick` -/

@[simp] theorem setTick_hw (x : Nat) : (s.setTick x).hw = s.hw := rfl
@[simp] theorem setTick_regs (x : Nat) : (s.setTick x).regs = s.regs := rfl
@[simp] theorem setTick_cfg (x : Nat) : (s.setTick x).cfg = s.cfg := rfl
@[simp] theorem setTick_sup (x : Nat) : (s.setTick x).sup = s.sup := rfl
@[simp] theorem setTick_hand (x : Nat) : (s.setTick x).hand = s.hand := rfl
@[simp] theorem setTick_prod (x : Nat) : (s.setTick x).prod = s.prod := rfl
@[simp] theorem setTick_cons (x : Nat) : (s.setTick x).cons = s.cons := rfl
@[simp] theorem setTick_spectral (x : Nat) : (s.setTick x).spectral = s.spectral := rfl
@[simp] theorem setTick_cu (x : Nat) : (s.setTick x).cu = s.cu := rfl
@[simp] theorem setTick_fft (x : Nat) : (s.setTick x).fft = s.fft := rfl
@[simp] theorem setTick_ring (x : Nat) : (s.setTick x).ring = s.ring := rfl
@[simp] theorem setTick_cols (x : Nat) : (s.setTick x).cols = s.cols := rfl
@[simp] theorem setTick_flags (x : Nat) : (s.setTick x).flags = s.flags := rfl
@[simp] theorem setTick_lines (x : Nat) : (s.setTick x).lines = s.lines := rfl
@[simp] theorem setTick_port (x : Nat) : (s.setTick x).port = s.port := rfl
@[simp] theorem setTick_src (x : Nat) : (s.setTick x).src = s.src := rfl
@[simp] theorem setTick_inputs (x : Nat) : (s.setTick x).inputs = s.inputs := rfl
@[simp] theorem setTick_tick (x : Nat) : (s.setTick x).tick = x := rfl

/-! ## `prodTo` -/

@[simp] theorem prodTo_hw (p : ProdPart) : (s.prodTo p).hw = s.hw := rfl
@[simp] theorem prodTo_regs (p : ProdPart) : (s.prodTo p).regs = s.regs := rfl
@[simp] theorem prodTo_cfg (p : ProdPart) : (s.prodTo p).cfg = s.cfg := rfl
@[simp] theorem prodTo_sup (p : ProdPart) : (s.prodTo p).sup = s.sup := rfl
@[simp] theorem prodTo_hand (p : ProdPart) : (s.prodTo p).hand = s.hand := rfl
@[simp] theorem prodTo_prod (p : ProdPart) : (s.prodTo p).prod = { s.prod with part := p } := rfl
@[simp] theorem prodTo_cons (p : ProdPart) : (s.prodTo p).cons = s.cons := rfl
@[simp] theorem prodTo_spectral (p : ProdPart) : (s.prodTo p).spectral = s.spectral := rfl
@[simp] theorem prodTo_cu (p : ProdPart) : (s.prodTo p).cu = s.cu := rfl
@[simp] theorem prodTo_fft (p : ProdPart) : (s.prodTo p).fft = s.fft := rfl
@[simp] theorem prodTo_ring (p : ProdPart) : (s.prodTo p).ring = s.ring := rfl
@[simp] theorem prodTo_cols (p : ProdPart) : (s.prodTo p).cols = s.cols := rfl
@[simp] theorem prodTo_flags (p : ProdPart) : (s.prodTo p).flags = s.flags := rfl
@[simp] theorem prodTo_lines (p : ProdPart) : (s.prodTo p).lines = s.lines := rfl
@[simp] theorem prodTo_port (p : ProdPart) : (s.prodTo p).port = s.port := rfl
@[simp] theorem prodTo_src (p : ProdPart) : (s.prodTo p).src = s.src := rfl
@[simp] theorem prodTo_inputs (p : ProdPart) : (s.prodTo p).inputs = s.inputs := rfl
@[simp] theorem prodTo_tick (p : ProdPart) : (s.prodTo p).tick = s.tick := rfl

/-! ## `consTo` -/

@[simp] theorem consTo_hw (p : ConsPart) : (s.consTo p).hw = s.hw := rfl
@[simp] theorem consTo_regs (p : ConsPart) : (s.consTo p).regs = s.regs := rfl
@[simp] theorem consTo_cfg (p : ConsPart) : (s.consTo p).cfg = s.cfg := rfl
@[simp] theorem consTo_sup (p : ConsPart) : (s.consTo p).sup = s.sup := rfl
@[simp] theorem consTo_hand (p : ConsPart) : (s.consTo p).hand = s.hand := rfl
@[simp] theorem consTo_prod (p : ConsPart) : (s.consTo p).prod = s.prod := rfl
@[simp] theorem consTo_cons (p : ConsPart) : (s.consTo p).cons = { s.cons with part := p } := rfl
@[simp] theorem consTo_spectral (p : ConsPart) : (s.consTo p).spectral = s.spectral := rfl
@[simp] theorem consTo_cu (p : ConsPart) : (s.consTo p).cu = s.cu := rfl
@[simp] theorem consTo_fft (p : ConsPart) : (s.consTo p).fft = s.fft := rfl
@[simp] theorem consTo_ring (p : ConsPart) : (s.consTo p).ring = s.ring := rfl
@[simp] theorem consTo_cols (p : ConsPart) : (s.consTo p).cols = s.cols := rfl
@[simp] theorem consTo_flags (p : ConsPart) : (s.consTo p).flags = s.flags := rfl
@[simp] theorem consTo_lines (p : ConsPart) : (s.consTo p).lines = s.lines := rfl
@[simp] theorem consTo_port (p : ConsPart) : (s.consTo p).port = s.port := rfl
@[simp] theorem consTo_src (p : ConsPart) : (s.consTo p).src = s.src := rfl
@[simp] theorem consTo_inputs (p : ConsPart) : (s.consTo p).inputs = s.inputs := rfl
@[simp] theorem consTo_tick (p : ConsPart) : (s.consTo p).tick = s.tick := rfl

/-! ## `fftTo` -/

@[simp] theorem fftTo_hw (p : FftPhase) : (s.fftTo p).hw = s.hw := rfl
@[simp] theorem fftTo_regs (p : FftPhase) : (s.fftTo p).regs = s.regs := rfl
@[simp] theorem fftTo_cfg (p : FftPhase) : (s.fftTo p).cfg = s.cfg := rfl
@[simp] theorem fftTo_sup (p : FftPhase) : (s.fftTo p).sup = s.sup := rfl
@[simp] theorem fftTo_hand (p : FftPhase) : (s.fftTo p).hand = s.hand := rfl
@[simp] theorem fftTo_prod (p : FftPhase) : (s.fftTo p).prod = s.prod := rfl
@[simp] theorem fftTo_cons (p : FftPhase) : (s.fftTo p).cons = s.cons := rfl
@[simp] theorem fftTo_spectral (p : FftPhase) : (s.fftTo p).spectral = s.spectral := rfl
@[simp] theorem fftTo_cu (p : FftPhase) : (s.fftTo p).cu = s.cu := rfl
@[simp] theorem fftTo_fft (p : FftPhase) : (s.fftTo p).fft = { s.fft with phase := p } := rfl
@[simp] theorem fftTo_ring (p : FftPhase) : (s.fftTo p).ring = s.ring := rfl
@[simp] theorem fftTo_cols (p : FftPhase) : (s.fftTo p).cols = s.cols := rfl
@[simp] theorem fftTo_flags (p : FftPhase) : (s.fftTo p).flags = s.flags := rfl
@[simp] theorem fftTo_lines (p : FftPhase) : (s.fftTo p).lines = s.lines := rfl
@[simp] theorem fftTo_port (p : FftPhase) : (s.fftTo p).port = s.port := rfl
@[simp] theorem fftTo_src (p : FftPhase) : (s.fftTo p).src = s.src := rfl
@[simp] theorem fftTo_inputs (p : FftPhase) : (s.fftTo p).inputs = s.inputs := rfl
@[simp] theorem fftTo_tick (p : FftPhase) : (s.fftTo p).tick = s.tick := rfl

/-! ## `unitTo` -/

@[simp] theorem unitTo_hw (a b r : Cplx) : (s.unitTo a b r).hw = s.hw := rfl
@[simp] theorem unitTo_regs (a b r : Cplx) : (s.unitTo a b r).regs = s.regs := rfl
@[simp] theorem unitTo_cfg (a b r : Cplx) : (s.unitTo a b r).cfg = s.cfg := rfl
@[simp] theorem unitTo_sup (a b r : Cplx) : (s.unitTo a b r).sup = s.sup := rfl
@[simp] theorem unitTo_hand (a b r : Cplx) : (s.unitTo a b r).hand = s.hand := rfl
@[simp] theorem unitTo_prod (a b r : Cplx) : (s.unitTo a b r).prod = s.prod := rfl
@[simp] theorem unitTo_cons (a b r : Cplx) : (s.unitTo a b r).cons = s.cons := rfl
@[simp] theorem unitTo_spectral (a b r : Cplx) : (s.unitTo a b r).spectral = s.spectral := rfl
@[simp] theorem unitTo_cu (a b r : Cplx) : (s.unitTo a b r).cu = { s.cu with a := a, b := b, r := r } := rfl
@[simp] theorem unitTo_fft (a b r : Cplx) : (s.unitTo a b r).fft = s.fft := rfl
@[simp] theorem unitTo_ring (a b r : Cplx) : (s.unitTo a b r).ring = s.ring := rfl
@[simp] theorem unitTo_cols (a b r : Cplx) : (s.unitTo a b r).cols = s.cols := rfl
@[simp] theorem unitTo_flags (a b r : Cplx) : (s.unitTo a b r).flags = s.flags := rfl
@[simp] theorem unitTo_lines (a b r : Cplx) : (s.unitTo a b r).lines = s.lines := rfl
@[simp] theorem unitTo_port (a b r : Cplx) : (s.unitTo a b r).port = s.port := rfl
@[simp] theorem unitTo_src (a b r : Cplx) : (s.unitTo a b r).src = s.src := rfl
@[simp] theorem unitTo_inputs (a b r : Cplx) : (s.unitTo a b r).inputs = s.inputs := rfl
@[simp] theorem unitTo_tick (a b r : Cplx) : (s.unitTo a b r).tick = s.tick := rfl

end Sys2Proof.Machine
end

