-- ==== Sys2Proof/Laws/Ops.lean ====
section
/-! SUPPORT. What each shared operation can do, said once: an equation or the list of its cases, and for
the long ones what they leave alone. -/

namespace Sys2Proof.Machine

variable (s t : State)

/-! ## Inputs and conditional steps -/

theorem takeInput_of_cons {i : Input} {rest : List Input} (h : s.inputs = i :: rest) :
    takeInput s = (i, s.setInputs rest) := by simp [takeInput, h]

theorem takeInput_of_nil (h : s.inputs = []) :
    takeInput s = (Config.freeInput s.tick, s.setTick (s.tick + 1)) := by simp [takeInput, h]

theorem stepIf_of (c : Prop) [Decidable c] (h : c) : stepIf c t s = .next t := by simp [stepIf, h]

theorem stepIf_of_not (c : Prop) [Decidable c] (h : ¬c) : stepIf c t s = .next s := by simp [stepIf, h]

/-- A conditional step either is taken or changes nothing. -/
theorem stepIf_cases {c : Prop} [Decidable c] {t' : State} (h : stepIf c t s = .next t') :
    (c ∧ t' = t) ∨ (¬c ∧ t' = s) := by
  by_cases hc : c
  · exact .inl ⟨hc, by simpa [stepIf, hc, eq_comm] using h⟩
  · exact .inr ⟨hc, by simpa [stepIf, hc, eq_comm] using h⟩

/-! ## Events (R271) -/

theorem raise_openFailure : raise .openFailure s =
    { s with flags := { s.flags with decodeFail := true },
             lines := { s.lines with evFail := s.lines.evFail + 1 } } := rfl

theorem raise_decodeFailure : raise .decodeFailure s =
    { s with flags := { s.flags with decodeFail := true },
             lines := { s.lines with evFail := s.lines.evFail + 1 },
             prod := { s.prod with pexit := .failed, pstate := .exit } } := rfl

theorem raise_degenerateNormalisation : raise .degenerateNormalisation s =
    { s with flags := { s.flags with flat := true } } := rfl

theorem raise_badCommand : raise .badCommand s = { s with flags := { s.flags with badCmd := true } } := rfl

theorem raise_busy : raise .busy s = { s with flags := { s.flags with busy := true } } := rfl

theorem raise_configError : raise .configError s =
    { s with flags := { s.flags with cfgErr := true },
             lines := { s.lines with evFail := s.lines.evFail + 1 } } := rfl

theorem raise_stop_prod : raise (.stop .prod) s =
    { s with prod := { s.prod with pexit := .stopped, pstate := .exit } } := rfl

theorem raise_stop_cons : raise (.stop .cons) s =
    { s with cons := { s.cons with cexit := .stopped, cstate := .exit } } := rfl

theorem raise_abort_prod : raise (.abort .prod) s =
    { s with prod := { s.prod with pexit := .aborted, pstate := .exit } } := rfl

theorem raise_abort_cons : raise (.abort .cons) s =
    { s with cons := { s.cons with cexit := .aborted, cstate := .exit } } := rfl

theorem raise_expiry : raise .expiry s = { s with flags := { s.flags with expired := true } } := rfl

/-! ## What an event leaves alone -/

@[simp] theorem raise_hw (e : Event) : (raise e s).hw = s.hw := rfl
@[simp] theorem raise_regs (e : Event) : (raise e s).regs = s.regs := rfl
@[simp] theorem raise_cfg (e : Event) : (raise e s).cfg = s.cfg := rfl
@[simp] theorem raise_sup (e : Event) : (raise e s).sup = s.sup := rfl
@[simp] theorem raise_hand (e : Event) : (raise e s).hand = s.hand := rfl
@[simp] theorem raise_spectral (e : Event) : (raise e s).spectral = s.spectral := rfl
@[simp] theorem raise_cu (e : Event) : (raise e s).cu = s.cu := rfl
@[simp] theorem raise_fft (e : Event) : (raise e s).fft = s.fft := rfl
@[simp] theorem raise_ring (e : Event) : (raise e s).ring = s.ring := rfl
@[simp] theorem raise_cols (e : Event) : (raise e s).cols = s.cols := rfl
@[simp] theorem raise_port (e : Event) : (raise e s).port = s.port := rfl
@[simp] theorem raise_src (e : Event) : (raise e s).src = s.src := rfl
@[simp] theorem raise_inputs (e : Event) : (raise e s).inputs = s.inputs := rfl
@[simp] theorem raise_tick (e : Event) : (raise e s).tick = s.tick := rfl
@[simp] theorem raise_flags (e : Event) : (raise e s).flags = s.flags.after e := rfl
@[simp] theorem raise_lines (e : Event) : (raise e s).lines = s.lines.after e := rfl
@[simp] theorem raise_prod (e : Event) : (raise e s).prod = s.prod.after e := rfl
@[simp] theorem raise_cons (e : Event) : (raise e s).cons = s.cons.after e := rfl

/-! ## Cancellation (R209, R231) -/

theorem opProdCancel_eq : opProdCancel s =
    { s with prod := { s.prod with
        pexit := if s.sup.pabort = true then .aborted else .stopped, pstate := .exit } } := by
  by_cases h : s.sup.pabort = true
  · simp only [opProdCancel, if_pos h]; rfl
  · simp only [opProdCancel, if_neg h]; rfl

theorem opConsCancel_eq : opConsCancel s =
    { s with cons := { s.cons with
        cexit := if s.sup.cabort = true then .aborted else .stopped, cstate := .exit } } := by
  by_cases h : s.sup.cabort = true
  · simp only [opConsCancel, if_pos h]; rfl
  · simp only [opConsCancel, if_neg h]; rfl

/-! ## Ring access and handoff (R180 to R188) -/

theorem opRbwr_eq : opRbwr s =
    { s with ring := s.ring.write s.prod.wr s.prod.smp
             prod := { s.prod with wr := nextSlot s.hw s.prod.wr } } := rfl

theorem opRbrd_eq : opRbrd s =
    { s with spectral := { s.spectral with idx := s.cons.rd, smp := s.ring.read s.cons.rd }
             cons := { s.cons with rd := nextSlot s.hw s.cons.rd } } := rfl

theorem opRbwin_eq : opRbwin s =
    { s with spectral := { s.spectral with win := windowOf s.hw s.ring s.spectral.idx } } := rfl

/-- SIGNAL completion writes the slot and PROD's three sequencing fields, and nothing else. -/
theorem opSignalComplete_cases (h : prodWaits s) :
    ∃ pp px ps, opSignalComplete s =
      { s with hand := { position := s.prod.ppend, workerDone := false }
               prod := { s.prod with ppend := pp, pexit := px, pstate := ps } } ∧
      ((s.prod.pstate = .sigWait ∧ pp = s.prod.ppend ∧ px = s.prod.pexit ∧ ps = .run) ∨
       (s.prod.pstate = .sigWaitLast ∧ pp = -1 ∧ px = s.prod.pexit ∧ ps = .sigWaitEnd) ∨
       (s.prod.pstate = .sigWaitEnd ∧ pp = s.prod.ppend ∧ px = .eos ∧ ps = .exit)) := by
  rcases h with h | h | h
  · exact ⟨_, _, _, by simp only [opSignalComplete, h]; rfl, .inl ⟨h, rfl, rfl, rfl⟩⟩
  · exact ⟨_, _, _, by simp only [opSignalComplete, h]; rfl, .inr (.inl ⟨h, rfl, rfl, rfl⟩)⟩
  · exact ⟨_, _, _, by simp only [opSignalComplete, h]; rfl, .inr (.inr ⟨h, rfl, rfl, rfl⟩)⟩

theorem opAwaitEnter_eq : opAwaitEnter s =
    { s with hand := { s.hand with workerDone := true }
             cons := { s.cons with prev := s.cons.lim, cstate := .await } } := rfl

theorem opAwaitComplete_eq : opAwaitComplete s =
    { s with cons :=
        if s.hand.position = -1 then { s.cons with cexit := .sentinel, cstate := .exit }
        else { s.cons with lim := s.hand.position, cstate := .drain } } := by
  by_cases h : s.hand.position = -1
  · simp only [opAwaitComplete, if_pos h]; rfl
  · simp only [opAwaitComplete, if_neg h]; rfl

/-! ## Producer (R201 to R206) -/

/-- A fetch is answered by a whole frame, which the stream gives up, or not at all, or by the end or a
failure, as the stream's tail says. -/
theorem Source.answer_cases (src : Source) (n : Nat) :
    (n ≤ src.bytes.length ∧ src.answer n =
      (some (.frame (src.bytes.take n)), { src with bytes := src.bytes.drop n })) ∨
    (src.bytes.length < n ∧ src.tail = .more ∧ src.answer n = (none, src)) ∨
    (src.bytes.length < n ∧ src.tail = .eos ∧ src.answer n = (some .eos, { src with bytes := [] })) ∨
    (src.bytes.length < n ∧ src.tail = .fail ∧ src.answer n = (some .fail, src)) := by
  by_cases h : n ≤ src.bytes.length
  · exact .inl ⟨h, by simp [Source.answer, h]⟩
  · have hlt : src.bytes.length < n := by omega
    cases ht : src.tail with
    | more => exact .inr (.inl ⟨hlt, rfl, by simp [Source.answer, h, ht]⟩)
    | eos => exact .inr (.inr (.inl ⟨hlt, rfl, by simp [Source.answer, h, ht]⟩))
    | fail => exact .inr (.inr (.inr ⟨hlt, rfl, by simp [Source.answer, h, ht]⟩))

/-- PFETCH writes the stream and the answer, or nothing. -/
theorem opPfetch_cases :
    opPfetch s = s ∨ ∃ a src, s.src.answer s.cfg.bpf.toNat = (some a, src) ∧
      opPfetch s = { s with src := src, prod := { s.prod with fetched := some a } } := by
  rcases h : s.src.answer s.cfg.bpf.toNat with ⟨_ | a, src⟩
  · exact .inl (by simp only [opPfetch, h])
  · exact .inr ⟨a, src, rfl, by simp only [opPfetch, h]; rfl⟩

theorem opPdecode_of_frame {f : List Byte} (h : s.prod.fetched = some (.frame f)) :
    opPdecode s = { s with prod := { s.prod with smp := sampleOf s.cfg f } } := by
  simp only [opPdecode, h]; rfl

theorem opCountFrame_eq : opCountFrame s =
    { s with prod :=
        if s.prod.run + 1 = s.hw.batch then
          { s.prod with nframes := s.prod.nframes + 1, run := 0, ppend := s.prod.wr,
                        pstate := .sigWait, fetched := none, part := .none }
        else { s.prod with nframes := s.prod.nframes + 1, run := s.prod.run + 1, fetched := none
                           part := .none } } := by
  by_cases h : s.prod.run + 1 = s.hw.batch
  · simp only [opCountFrame, if_pos h]; rfl
  · simp only [opCountFrame, if_neg h]; rfl

theorem opPeos_eq : opPeos s =
    { s with prod :=
        if 0 < s.prod.run then
          { s.prod with ppend := s.prod.wr, run := 0, pstate := .sigWaitLast, fetched := none }
        else { s.prod with ppend := -1, pstate := .sigWaitEnd, fetched := none } } := by
  by_cases h : 0 < s.prod.run
  · simp only [opPeos, if_pos h]; rfl
  · simp only [opPeos, if_neg h]; rfl

/-- With no PSTEP under way there is nothing to finish. -/
theorem opFinishProd_of_none (h : s.prod.part = .none) : opFinishProd s = s := by simp only [opFinishProd, h]

theorem opFinishProd_of_decoded (h : s.prod.part = .decoded) : opFinishProd s = opCountFrame (opRbwr s) := by
  simp only [opFinishProd, h]

theorem opFinishProd_of_written (h : s.prod.part = .written) : opFinishProd s = opCountFrame s := by
  simp only [opFinishProd, h]

/-! ## The FFT engine (R166, R167) -/

theorem opFft_eq : opFft s =
    { s with spectral := { s.spectral with buf := fftBuf s.hw.log2Chunk s.spectral.buf } } := rfl

theorem opFftDone_eq : opFftDone s =
    { s with
        fft := { s.fft with phase := .idle }
        cons := { s.cons with part := .transformed } } := rfl

theorem opBitrev_eq : opBitrev s =
    { s with
        spectral := { s.spectral with buf := bitrevBuf s.hw.log2Chunk s.spectral.buf }
        fft := { s.fft with l := 2, phase := .pass } } := rfl

theorem opTwid_eq : opTwid s =
    { s with fft := { s.fft with wl := twiddle s.fft.l, k := 0, j := 0, w := cOne, phase := .ready } } := rfl

theorem opBfly_eq : opBfly s =
    { s with
        spectral := { s.spectral with buf := butterfly s.spectral.buf (bflyP s) (bflyQ s) s.fft.w }
        fft := { s.fft with phase := .advance } } := rfl

theorem opBflyProduct_eq : opBflyProduct s =
    { s with
        cu := { s.cu with
          a := s.fft.w, b := cAt s.spectral.buf (bflyQ s), r := cMul s.fft.w (cAt s.spectral.buf (bflyQ s)) }
        fft := { s.fft with phase := .product } } := rfl

theorem opBflySum_eq : opBflySum s =
    { s with
        cu := { s.cu with
          a := cAt s.spectral.buf (bflyP s), b := s.cu.r, r := cAdd (cAt s.spectral.buf (bflyP s)) s.cu.r }
        spectral := { s.spectral with
          buf := s.spectral.buf.set (bflyP s) (cAdd (cAt s.spectral.buf (bflyP s)) s.cu.r) }
        fft := { s.fft with phase := .sum } } := rfl

theorem opBflyDifference_eq : opBflyDifference s =
    { s with
        cu := { s.cu with r := cSub s.cu.a s.cu.b }
        spectral := { s.spectral with buf := s.spectral.buf.set (bflyQ s) (cSub s.cu.a s.cu.b) }
        fft := { s.fft with phase := .difference } } := rfl

theorem opBfpass_eq : opBfpass s =
    { s with
        spectral := { s.spectral with buf := passBuf s.hw.chunk s.fft.l s.spectral.buf }
        fft := { s.fft with l := 2 * s.fft.l, phase := .pass } } := rfl

theorem opNextButterfly_eq (w : Cplx) : opNextButterfly w s =
    { s with fft :=
        if s.fft.j + 1 < s.fft.l / 2 then { s.fft with j := s.fft.j + 1, w := w, phase := .ready }
        else { s.fft with j := 0, k := s.fft.k + s.fft.l, w := cOne, phase := .ready } } := by
  by_cases h : s.fft.j + 1 < s.fft.l / 2
  · simp only [opNextButterfly, if_pos h]; rfl
  · simp only [opNextButterfly, if_neg h]; rfl

theorem opAdvance_eq : opAdvance s =
    { s with
        cu := { s.cu with a := s.fft.w, b := s.fft.wl, r := cMul s.fft.w s.fft.wl }
        fft :=
          if s.fft.j + 1 < s.fft.l / 2 then
            { s.fft with j := s.fft.j + 1, w := cMul s.fft.w s.fft.wl, phase := .ready }
          else { s.fft with j := 0, k := s.fft.k + s.fft.l, w := cOne, phase := .ready } } := by
  rw [opAdvance, opNextButterfly_eq]; rfl

/-- A part of an FFT keeps CONS's registers, or ends the transform, so that ACC is due. -/
theorem opFftPart_cons : (opFftPart s).cons = s.cons ∨ (opFftPart s).cons = { s.cons with part := .transformed } := by
  unfold opFftPart
  split
  · exact .inr rfl
  · split
    · exact .inr rfl
    · exact .inl rfl
  · split <;> exact .inl rfl
  · exact .inl rfl
  · exact .inl rfl
  · exact .inl rfl
  · rw [opAdvance_eq]; exact .inl rfl

/-! ## Consumer (R222 to R230) -/

theorem opWindow_eq : opWindow s =
    { s with
        spectral := { s.spectral with buf := windowBuf s.hw s.spectral.win }
        fft := { s.fft with phase := .idle } } := rfl

theorem opAcc_eq : opAcc s =
    { s with spectral := { s.spectral with acc := accBuf s.hw s.spectral.acc s.spectral.buf } } := rfl

/-- The window, its spectrum and the sum: all that CCHUNK writes of the data path. -/
theorem opCchunk_eq : opCchunk s =
    { s with
        spectral := { s.spectral with
          win := windowOf s.hw s.ring s.spectral.idx
          buf := fftBuf s.hw.log2Chunk (windowBuf s.hw (windowOf s.hw s.ring s.spectral.idx))
          acc := accBuf s.hw s.spectral.acc
            (fftBuf s.hw.log2Chunk (windowBuf s.hw (windowOf s.hw s.ring s.spectral.idx))) }
        fft := { s.fft with phase := .idle }
        cons := { s.cons with nchunk := s.cons.nchunk + 1 } } := by
  simp only [opCchunk, opRbwin_eq, opWindow_eq, opFft_eq, opAcc_eq, opCountChunk, State.setCons]

theorem opColumn_eq : opColumn s =
    { s with
        spectral := columnScratch s.hw s.cons.nchunk s.spectral
        flags := if rangeIsNormal (columnScratch s.hw s.cons.nchunk s.spectral).range then s.flags
          else { s.flags with flat := true } } := by
  unfold opColumn
  generalize columnScratch s.hw s.cons.nchunk s.spectral = x
  by_cases h : rangeIsNormal x.range = true
  · rw [if_pos h, if_pos (show rangeIsNormal (s.setSpectral x).spectral.range = true from h)]; rfl
  · rw [if_neg h, if_neg (show ¬rangeIsNormal (s.setSpectral x).spectral.range = true from h)]; rfl

theorem opEmit_eq : opEmit s =
    if s.cons.ncol < s.cfg.pixcols.toNat then
      { s with cols := s.cols ++ [s.spectral.out]
               cons := { s.cons with ncol := s.cons.ncol + 1 }
               lines := { s.lines with evColumn := s.lines.evColumn + 1 } }
    else s := rfl

theorem opCloseColumn_eq : opCloseColumn s =
    { s with
        spectral := { s.spectral with acc := List.replicate s.hw.chunk cZero }
        cons :=
          if s.cons.ncol = s.cfg.pixcols.toNat then
            { s.cons with cnt := 0, nchunk := 0, part := .none, cexit := .complete, cstate := .exit }
          else { s.cons with cnt := 0, nchunk := 0, part := .none } } := by
  by_cases h : s.cons.ncol = s.cfg.pixcols.toNat
  · simp only [opCloseColumn, if_pos h]; rfl
  · simp only [opCloseColumn, if_neg h]; rfl

/-- The emission and the end of CCOL leave the dB values as its computation wrote them. -/
theorem opCcol_v : (opCcol s).spectral.v = (magnitudesDue s.hw s.cons.nchunk s.spectral).map (levelOf s.hw) := by
  simp only [opCcol, opCloseColumn_eq, opEmit_eq, opColumn_eq]
  split <;> rfl

/-- What is due after a sample, case by case. -/
theorem dueAfterSample_cases (p : Params) (spc nchunk cnt : Nat) :
    ((cnt % p.chunk = 0 ∨ (cnt = spc ∧ nchunk = 0)) ∧ dueAfterSample p spc nchunk cnt = .chunk) ∨
    (cnt % p.chunk ≠ 0 ∧ cnt = spc ∧ nchunk ≠ 0 ∧ dueAfterSample p spc nchunk cnt = .column) ∨
    (cnt % p.chunk ≠ 0 ∧ cnt ≠ spc ∧ dueAfterSample p spc nchunk cnt = .none) := by
  by_cases h : cnt % p.chunk = 0 ∨ (cnt = spc ∧ nchunk = 0)
  · exact .inl ⟨h, if_pos h⟩
  · have h' := not_or.1 h
    by_cases hc : cnt = spc
    · exact .inr (.inl ⟨h'.1, hc, fun hn => h'.2 ⟨hc, hn⟩, by simp only [dueAfterSample, if_neg h, if_pos hc]⟩)
    · exact .inr (.inr ⟨h'.1, hc, by simp only [dueAfterSample, if_neg h, if_neg hc]⟩)

theorem opCountSample_eq : opCountSample s =
    { s with cons := { s.cons with
        cnt := s.cons.cnt + 1
        part := dueAfterSample s.hw s.sup.spc s.cons.nchunk (s.cons.cnt + 1) } } := rfl

theorem opChunkDone_eq : opChunkDone s =
    { s with cons := { s.cons with part := if s.cons.cnt = s.sup.spc then .column else .none } } := rfl

theorem opColumnDivide_eq : opColumnDivide s =
    { s with
        cu := { s.cu with
          a := cAt s.spectral.acc s.spectral.bin, s := fOfNat s.cons.nchunk
          r := cDivs (cAt s.spectral.acc s.spectral.bin) (fOfNat s.cons.nchunk) }
        spectral := { s.spectral with divided := true } } := rfl

theorem opColumnMagnitude_eq : opColumnMagnitude s =
    { s with
        cu := { s.cu with a := s.cu.r, f := cAbs s.cu.r }
        spectral := { s.spectral with
          v := s.spectral.v.set s.spectral.bin (meanMagnitude s.hw.accMode s.cu.r)
          bin := s.spectral.bin + 1, divided := false } } := rfl

/-- The end of CCOL is the end of the CSTEP. -/
theorem opCcol_part : (opCcol s).cons.part = .none := by
  simp only [opCcol, opCloseColumn_eq]; split <;> rfl

/-- With no CSTEP under way there is no next part. -/
theorem opNextPart_of_none (h : s.cons.part = .none) : opNextPart s = s := by simp only [opNextPart, h]

theorem opNextParts_of_none (h : s.cons.part = .none) (n : Nat) : opNextParts n s = s := by
  induction n with
  | zero => rfl
  | succ n ih => rw [opNextParts, opNextPart_of_none s h, ih]

/-- With no CSTEP under way there is nothing to finish. -/
theorem opFinishCons_of_none (h : s.cons.part = .none) : opFinishCons s = s := by simp only [opFinishCons, h]

/-- What is left of a CSTEP is its next parts, as many as there can be. -/
theorem opFinishCons_eq : opFinishCons s = opNextParts (partsBound s.hw) s := by
  unfold opFinishCons
  split
  · exact (opNextParts_of_none s ‹_› _).symm
  · rfl

theorem opFinish_of_none (hp : s.prod.part = .none) (hc : s.cons.part = .none) : opFinish s = s := by
  rw [opFinish, opFinishProd_of_none s hp, opFinishCons_of_none s hc]

end Sys2Proof.Machine
end

