-- ==== Sys2Proof/Laws/PerInstr.lean ====
section
/-! SUPPORT. The family of LAWS.json: decoding the word of an operation gives the operation. -/

namespace Sys2Proof.Laws

/-- The word of an operation decodes to it (R114, R115). -/
def RoundTrip.Statement (i : Instr) : Prop := decode (encode i) = .ok i

theorem RoundTrip.start : RoundTrip.Statement .start := rfl
theorem RoundTrip.stop : RoundTrip.Statement .stop := rfl
theorem RoundTrip.expire : RoundTrip.Statement .expire := rfl
theorem RoundTrip.join : RoundTrip.Statement .join := rfl
theorem RoundTrip.cmul : RoundTrip.Statement .cmul := rfl
theorem RoundTrip.cadd : RoundTrip.Statement .cadd := rfl
theorem RoundTrip.csub : RoundTrip.Statement .csub := rfl
theorem RoundTrip.cdivs : RoundTrip.Statement .cdivs := rfl
theorem RoundTrip.cabs : RoundTrip.Statement .cabs := rfl
theorem RoundTrip.carg : RoundTrip.Statement .carg := rfl
theorem RoundTrip.fft : RoundTrip.Statement .fft := rfl
theorem RoundTrip.bitrev : RoundTrip.Statement .bitrev := rfl
theorem RoundTrip.twid : RoundTrip.Statement .twid := rfl
theorem RoundTrip.bfly : RoundTrip.Statement .bfly := rfl
theorem RoundTrip.bfpass : RoundTrip.Statement .bfpass := rfl
theorem RoundTrip.rbwr : RoundTrip.Statement .rbwr := rfl
theorem RoundTrip.rbrd : RoundTrip.Statement .rbrd := rfl
theorem RoundTrip.rbwin : RoundTrip.Statement .rbwin := rfl
theorem RoundTrip.signal : RoundTrip.Statement .signal := rfl
theorem RoundTrip.await : RoundTrip.Statement .await := rfl
theorem RoundTrip.ppoll : RoundTrip.Statement .ppoll := rfl
theorem RoundTrip.pfetch : RoundTrip.Statement .pfetch := rfl
theorem RoundTrip.pdecode : RoundTrip.Statement .pdecode := rfl
theorem RoundTrip.pstep : RoundTrip.Statement .pstep := rfl
theorem RoundTrip.peos : RoundTrip.Statement .peos := rfl
theorem RoundTrip.pfail : RoundTrip.Statement .pfail := rfl
theorem RoundTrip.pexit : RoundTrip.Statement .pexit := rfl
theorem RoundTrip.cpoll : RoundTrip.Statement .cpoll := rfl
theorem RoundTrip.cstep : RoundTrip.Statement .cstep := rfl
theorem RoundTrip.window : RoundTrip.Statement .window := rfl
theorem RoundTrip.acc : RoundTrip.Statement .acc := rfl
theorem RoundTrip.cchunk : RoundTrip.Statement .cchunk := rfl
theorem RoundTrip.ccol : RoundTrip.Statement .ccol := rfl
theorem RoundTrip.cexit : RoundTrip.Statement .cexit := rfl

end Sys2Proof.Laws
end

