-- ==== Sys2Proof/Tests/Slice0.lean ====
section
/-! SUPPORT. Tests of the model by itself: the checks of well-formedness, every operation's word written out
from R110 and R115, vectors of spec/95_test_vectors.md, and for each statement with hypotheses a state and
operands that meet them (`test_witness_<statement>`). -/

namespace Sys2Proof.Tests

-- One theorem after the other: each `decide +kernel` in flight holds a thread of its own.
set_option Elab.async false

open Sys2Proof.Machine

/-! ## Well-formedness: an ill-formed term for each check -/

theorem test_wf_refuses_unassigned_word : Input.wf Params.hardware (.op 0x03000000#32) = false := by decide
theorem test_wf_refuses_nonzero_arg : Input.wf Params.hardware (.op 0x01000001#32) = false := by decide
theorem test_wf_refuses_write_beyond_registers : Input.wf Params.hardware (.hostWrite 104 0#64) = false := by decide
theorem test_wf_refuses_write_between_registers : Input.wf Params.hardware (.hostWrite 12 0#64) = false := by decide
theorem test_wf_refuses_read_beyond_registers : Input.wf Params.hardware (.hostRead 104) = false := by decide
theorem test_wf_refuses_bin_beyond_chunk : Input.wf Params.hardware (.readColumn 0 1024) = false := by decide
theorem test_wf_refuses_end_that_is_none : Input.wf Params.hardware (.srcEnd .more) = false := by decide
theorem test_wf_accepts :
    Input.wf Params.hardware (.op 0x43000000#32) = true ∧ Input.wf Params.hardware (.hostWrite 96 0#64) = true ∧
    Input.wf Params.hardware (.hostRead 0) = true ∧ Input.wf Params.hardware (.readColumn 0 1023) = true ∧
    Input.wf Params.hardware (.srcEnd .fail) = true := by decide

/-- The configuration checks (R250), LAYOUT values after V2. -/
theorem test_config_refuses_zero_pixcols : configLegal 0#32 0x00002012#32 = false := by decide
theorem test_config_refuses_bps_0 : configLegal 2#32 0x00002010#32 = false := by decide
theorem test_config_refuses_bps_5 : configLegal 2#32 0x00005015#32 = false := by decide
theorem test_config_refuses_nch_0 : configLegal 2#32 0x00002002#32 = false := by decide
theorem test_config_refuses_short_frame : configLegal 2#32 0x00003022#32 = false := by decide
theorem test_config_accepts :
    configLegal 2#32 0x00002012#32 = true ∧ configLegal 1#32 0x0000301B#32 = true ∧
    configLegal 1#32 0x00008024#32 = true := by decide

/-! ## Decoding: every operation's word, number in bits 31:24, the rest 0 -/

theorem test_decode_start : decode 0x01000000#32 = .ok .start := by rfl
theorem test_decode_stop : decode 0x02000000#32 = .ok .stop := by rfl
theorem test_decode_expire : decode 0x08000000#32 = .ok .expire := by rfl
theorem test_decode_join : decode 0x09000000#32 = .ok .join := by rfl
theorem test_decode_cmul : decode 0x10000000#32 = .ok .cmul := by rfl
theorem test_decode_cadd : decode 0x11000000#32 = .ok .cadd := by rfl
theorem test_decode_csub : decode 0x12000000#32 = .ok .csub := by rfl
theorem test_decode_cdivs : decode 0x13000000#32 = .ok .cdivs := by rfl
theorem test_decode_cabs : decode 0x14000000#32 = .ok .cabs := by rfl
theorem test_decode_carg : decode 0x15000000#32 = .ok .carg := by rfl
theorem test_decode_fft : decode 0x20000000#32 = .ok .fft := by rfl
theorem test_decode_bitrev : decode 0x21000000#32 = .ok .bitrev := by rfl
theorem test_decode_twid : decode 0x22000000#32 = .ok .twid := by rfl
theorem test_decode_bfly : decode 0x23000000#32 = .ok .bfly := by rfl
theorem test_decode_bfpass : decode 0x24000000#32 = .ok .bfpass := by rfl
theorem test_decode_rbwr : decode 0x30000000#32 = .ok .rbwr := by rfl
theorem test_decode_rbrd : decode 0x31000000#32 = .ok .rbrd := by rfl
theorem test_decode_rbwin : decode 0x32000000#32 = .ok .rbwin := by rfl
theorem test_decode_signal : decode 0x33000000#32 = .ok .signal := by rfl
theorem test_decode_await : decode 0x34000000#32 = .ok .await := by rfl
theorem test_decode_ppoll : decode 0x40000000#32 = .ok .ppoll := by rfl
theorem test_decode_pfetch : decode 0x41000000#32 = .ok .pfetch := by rfl
theorem test_decode_pdecode : decode 0x42000000#32 = .ok .pdecode := by rfl
theorem test_decode_pstep : decode 0x43000000#32 = .ok .pstep := by rfl
theorem test_decode_peos : decode 0x44000000#32 = .ok .peos := by rfl
theorem test_decode_pfail : decode 0x45000000#32 = .ok .pfail := by rfl
theorem test_decode_pexit : decode 0x46000000#32 = .ok .pexit := by rfl
theorem test_decode_cpoll : decode 0x50000000#32 = .ok .cpoll := by rfl
theorem test_decode_cstep : decode 0x51000000#32 = .ok .cstep := by rfl
theorem test_decode_window : decode 0x52000000#32 = .ok .window := by rfl
theorem test_decode_acc : decode 0x53000000#32 = .ok .acc := by rfl
theorem test_decode_cchunk : decode 0x54000000#32 = .ok .cchunk := by rfl
theorem test_decode_ccol : decode 0x55000000#32 = .ok .ccol := by rfl
theorem test_decode_cexit : decode 0x56000000#32 = .ok .cexit := by rfl

theorem test_decode_refuses_unassigned : decode 0x0A000000#32 = .error (.unassigned 10) := by rfl
theorem test_table_word : decodeTableWord 32 0x43000000 = some .pstep := by decide
/-! ## Vectors -/

/-- Small parameters (R5): CHUNK 4, LOOKAHEAD 1, hence BATCH 4 and RINGLEN 12. -/
def small : Params :=
  { log2ChunkPred := 1, lookaheadPred := 0, accMode := .complex, logBase := .ten, patience := 30, hostBase := 0 }

theorem test_small_parameters : small.chunk = 4 ∧ small.batch = 4 ∧ small.ringLen = 12 := by decide

/-- The state an operation leads to. -/
def after (i : Instr) (s : State) : State :=
  match exec i s with
  | .next t => t
  | _ => s

/-- A source with two 16-bit frames and the end of stream after them. -/
def twoFrames : Source := { isOpen := true, bytes := [0xE8#8, 0x03#8, 0x18#8, 0xFC#8], tail := .eos }

/-- Idle, configured with format L16 (V2), PIXCOLS 2, TOTAL 20. -/
def ready : State :=
  ((State.powerOn small).setRegs { pixcols := 2#32, total := 20#64, rate := 44100#32, layout := 0x00002012#32 }).setSrc
    twoFrames

/-- Just started. -/
def started : State := after .start ready

/-- Both agents at work: batch 4 published and received, one sample of the next written. -/
def working : State :=
  { started with
    hand := { position := 4, workerDone := false }
    prod := { started.prod with wr := 5, run := 1, nframes := 5, fetched := some (.frame [0xB8#8, 0x0B#8]) }
    cons := { started.cons with rd := 0, lim := 4 }
    ring := [(0, fOne), (4, fTwo)] }

/-- PROD waits to publish 8, CONS waits with 4 done. -/
def waiting : State :=
  { started with
    hand := { position := 4, workerDone := true }
    prod := { started.prod with pstate := .sigWait, wr := 8, ppend := 8, nframes := 8 }
    cons := { started.cons with cstate := .await, rd := 4, lim := 4, prev := 4, cnt := 4, nchunk := 1 } }

/-- The sentinel is published and not yet received. -/
def ended : State :=
  { started with
    hand := { position := -1, workerDone := false }
    prod := { started.prod with pstate := .exit, pexit := .eos, wr := 8, ppend := -1, nframes := 8 }
    cons := { started.cons with cstate := .await, rd := 8, lim := 8, prev := 8, cnt := 8, nchunk := 2 } }

/-- STOP commanded in `working`. -/
def stopping : State := after .stop working

/-- A PSTEP under way: PDECODE is taken. -/
def decoded : State := after .pdecode working

/-- A CSTEP under way: RBRD and the boundary tests are taken, and the sample is the fourth. -/
def chunkDue : State := after .cstep (after .rbrd (working.setCons { working.cons with rd := 3, cnt := 3 }))

/-- Its CCHUNK under way, part by part. -/
def gathered : State := after .rbwin chunkDue
def windowed : State := after .window gathered
def transformed : State := after .fft windowed

/-- Its FFT under way, part by part: the pass of length 2, its first butterfly and that one's parts. -/
def passDue : State := after .bitrev windowed
def bflyFirst : State := after .twid passDue
def bflyProduct : State := after .cmul bflyFirst
def bflySum : State := after .cadd bflyProduct
def bflyAdvance : State := after .bfly (after .csub bflySum)

/-- A silent column is due: `cnt = spc`, one chunk accumulated, all of it zero. -/
def silent : State :=
  working.setCons { working.cons with rd := 1, cnt := 10, nchunk := 1, part := .column }

/-- `s` with an accumulator of magnitudes (R7, R226). -/
def magnitude (s : State) : State := { s with hw := { s.hw with accMode := .magnitude } }

/-- V1. -/
theorem test_sample_assembly :
    sampleInt 2 true [0x03#8, 0xE8#8] = 1000 ∧ sampleInt 2 false [0x00#8, 0x80#8] = -32768 ∧
    sampleInt 1 true [0xFF#8] = -1 ∧ sampleInt 3 false [0x00#8, 0x00#8, 0x80#8] = -8388608 ∧
    sampleInt 4 true [0x7F#8, 0xFF#8, 0xFF#8, 0xFF#8] = 2147483647 ∧
    sampleInt 2 false [0xE8#8, 0x03#8, 0x55#8, 0xAA#8] = 1000 := by decide

/-- V1: 1000.0 is 0x408F400000000000. -/
theorem test_pdecode : (after .pdecode { working with prod := { working.prod with
    fetched := some (.frame [0xE8#8, 0x03#8]) } }).prod.smp = 0x408F400000000000#64 := by decide +kernel

/-- V2: CHX reads 0. -/
theorem test_layout_chx : storeLayout 0xF0002012#32 = 0x00002012#32 := by decide

/-- V3. -/
theorem test_status_after_start : statusWord started = 0x00000211#32 ∧ hstatWord started = 2#32 := by
  decide +kernel
/-- V24, third row of R251's examples with small numbers: `ceil(20/2) = 10`. -/
theorem test_spc : started.sup.spc = 10 := by decide +kernel

/-- V6: `(0,1) * (0,1)`, real part -1.0. -/
theorem test_cmul : (cMul { re := fZero, im := fOne } { re := fZero, im := fOne }).re = 0xBFF0000000000000#64 := by
  decide +kernel
/-- V7. -/
theorem test_cadd : cAdd { re := fZero, im := 0x8000000000000000#64 }
    { re := 0x8000000000000000#64, im := 0x8000000000000000#64 } = { re := fZero, im := 0x8000000000000000#64 } := by
  decide +kernel
/-- V7. -/
theorem test_csub : cSub { re := 0x4014000000000000#64, im := 0x4014000000000000#64 }
    { re := 0x4014000000000000#64, im := 0x4014000000000000#64 } = cZero := by decide +kernel
/-- S9: by `-0.0`. -/
theorem test_cdivs : cDivs { re := fOne, im := 0xC000000000000000#64 } 0x8000000000000000#64 =
    { re := fNegInf, im := fInf } := by decide +kernel
/-- V9: an infinity and a NaN. -/
theorem test_cabs : cAbs { re := fInf, im := 0x7FF8000000000000#64 } = fInf := by decide +kernel
/-- R228: in mode magnitude the magnitude of a mean is its real part. -/
theorem test_cabs_of_mean : meanMagnitude .magnitude { re := fTwo, im := fZero } = fTwo := by decide +kernel
/-- V9. -/
theorem test_carg : cArg { re := fZero, im := fOne } = 0x3FF921FB54442D18#64 ∧ cArg cOne = fZero := by
  decide +kernel
/-- Rounding to even, and the step below the largest finite value (R147, by hand). -/
theorem test_rounds_to_even :
    fAdd 0x4340000000000000#64 fOne = 0x4340000000000000#64 ∧
    fAdd 0x4340000000000001#64 fOne = 0x4340000000000002#64 ∧
    fAdd 0x7FEFFFFFFFFFFFFF#64 0x7C90000000000000#64 = fInf ∧
    fMul 0x0000000000000001#64 0x3FE0000000000000#64 = fZero := by decide +kernel

/-- V10. -/
theorem test_rev : revBits 10 1 = 512 ∧ revBits 10 3 = 768 ∧ revBits 10 1023 = 1023 := by decide
/-- R166's example: `[1,3,2,4]` under the pass of length 2 (V12, V13), real parts. -/
theorem test_bfly : (butterfly [cOne, { re := 0x4000000000000000#64, im := fZero }] 0 1 cOne).map Cplx.re =
    [0x4008000000000000#64, 0xBFF0000000000000#64] := by decide +kernel

/-- V16: RBWR wraps. -/
theorem test_rbwr : (after .rbwr (decoded.setProd { decoded.prod with wr := 11, smp := 0x401C000000000000#64 })).prod.wr
      = 0 ∧
    (after .rbwr (decoded.setProd { decoded.prod with wr := 11, smp := 0x401C000000000000#64 })).ring.read 11
      = 0x401C000000000000#64 := by decide +kernel
/-- V16: RBRD wraps. -/
theorem test_rbrd : (after .rbrd (working.setCons { working.cons with rd := 11 })).cons.rd = 0 ∧
    (after .rbrd (working.setCons { working.cons with rd := 11 })).spectral.idx = 11 := by decide +kernel
/-- V16. -/
theorem test_rbwin : (List.range 4).map (windowSlot small 1) = [10, 11, 0, 1] ∧
    (List.range 4).map (windowSlot small 3) = [0, 1, 2, 3] ∧
    windowSlot Params.hardware 440 0 = 65977 := by decide
/-- V17. -/
theorem test_signal : (after .signal waiting).hand = { position := 8, workerDone := false } ∧
    (after .signal waiting).prod.pstate = .run := by decide +kernel
/-- V17. -/
theorem test_await_entry : (after .await started).hand.workerDone = true ∧ (after .await started).cons.prev = 0 ∧
    (after .await started).cons.cstate = .await := by decide +kernel
/-- V18. -/
theorem test_await_sentinel : (after .await ended).cons.cexit = .sentinel ∧ (after .await ended).cons.lim = 8 := by
  decide +kernel
/-- V19: cancellation beats completion. -/
theorem test_signal_cancelled : (after .signal (after .stop waiting)).hand.position = 4 ∧
    (after .signal (after .stop waiting)).prod.pexit = .stopped := by decide +kernel
/-- V20. -/
theorem test_pstep : (after .pstep (working.setProd { working.prod with wr := 3, run := 3 })).prod.ppend = 4 ∧
    (after .pstep (working.setProd { working.prod with wr := 3, run := 3 })).prod.pstate = .sigWait ∧
    (after .pstep (working.setProd { working.prod with wr := 3, run := 3 })).ring.read 3
      = 0x40A7700000000000#64 := by decide +kernel
/-- V21. -/
theorem test_peos : (after .peos (working.setProd { working.prod with wr := 7, run := 3, fetched := some .eos })).prod.ppend
      = 7 ∧
    (after .peos (working.setProd { working.prod with run := 0, fetched := some .eos })).prod.pstate
      = .sigWaitEnd := by decide +kernel
/-- R208's example: `nframes` is the count before the failure. -/
theorem test_pfail : (after .pfail (working.setProd { working.prod with nframes := 4, fetched := some .fail })).prod.pexit
      = .failed ∧
    (after .pfail (working.setProd { working.prod with nframes := 4, fetched := some .fail })).prod.nframes = 4 ∧
    (after .pfail (working.setProd { working.prod with fetched := some .fail })).lines.evFail = 1 := by
  decide +kernel
/-- R201: the next whole frame. -/
theorem test_pfetch : (after .pfetch started).prod.fetched = some (.frame [0xE8#8, 0x03#8]) ∧
    (after .pfetch started).src.bytes = [0x18#8, 0xFC#8] := by decide +kernel
/-- R254 with one agent gone. -/
theorem test_expire : (after .expire (after .pexit stopping)).sup.pabort = false ∧
    (after .expire (after .pexit stopping)).sup.cabort = true ∧
    (after .cexit (after .expire (after .pexit stopping))).cons.cexit = .aborted := by decide +kernel
/-- R255. -/
theorem test_join : (after .join (after .cexit (after .pexit stopping))).sup.sstate = .idle ∧
    statusWord (after .join (after .cexit (after .pexit stopping))) = 0x00022000#32 := by decide +kernel
/-- R78, R205: RBWR is taken after PDECODE and before the frame is counted, and only then. -/
theorem test_pstep_parts : exec .rbwr working = .next working ∧ after .pstep decoded = decoded ∧
    (after .pstep (after .rbwr decoded)).prod = (after .pstep working).prod :=
  ⟨rfl, by decide +kernel, by decide +kernel⟩
/-- R329: a STOP during a PSTEP comes after it. -/
theorem test_stop_finishes_pstep : (after .stop decoded).prod.wr = 6 ∧ (after .stop decoded).prod.nframes = 6 ∧
    (after .stop decoded).sup.sstate = .stopping := by decide +kernel
/-- R329: so does one during a butterfly, and the chunk is counted. -/
theorem test_stop_finishes_cstep : (after .stop bflyProduct).cons.nchunk = 1 ∧
    (after .stop bflyProduct).cons.part = .none ∧ (after .stop bflyProduct).fft.phase = .idle := by decide +kernel
/-- R294, R296: outside a CCHUNK or a CCOL, and in S_IDLE, the engine and the unit do nothing. -/
theorem test_units_rest : exec .fft working = .next working ∧ exec .carg working = .next working ∧
    exec .bitrev ready = .next ready ∧ exec .cabs ready = .next ready := ⟨rfl, rfl, rfl, rfl⟩
/-- R170 for `n = 4`: two passes of two butterflies. -/
theorem test_fft_work : (fftParts small).count .bfly = 4 ∧ (fftParts small).count .cmul = 8 ∧
    (fftParts small).count .twid = 2 := by decide +kernel
/-- R166: the butterflies of a pass of length 2 are at 0 and 2, and then the pass is done. -/
theorem test_pass_parts : (after .cmul bflyAdvance).fft.k = 2 ∧ (after .cmul bflyAdvance).fft.phase = .ready ∧
    (after .bfpass (after .cmul (after .bfly (after .cmul bflyAdvance)))).fft.l = 4 := by decide +kernel
/-- R223 d, R328: with TOTAL 0, hence `spc = 0`, no column is due after START, and CCOL is no step. -/
theorem test_no_column_without_samples :
    (after .start (ready.setRegs { ready.regs with total := 0#64 })).sup.spc = 0 ∧
    (after .ccol (after .start (ready.setRegs { ready.regs with total := 0#64 }))).cons.ncol = 0 ∧
    (after .ccol (after .start (ready.setRegs { ready.regs with total := 0#64 }))).cols = [] := by decide +kernel
/-- R222: a sample at no boundary. -/
theorem test_cstep : (after .cstep working).cons.rd = 1 ∧ (after .cstep working).cons.cnt = 1 ∧
    (after .cstep working).cons.nchunk = 0 := by decide +kernel

/-! ## The invariants hold of states in a run -/

theorem working_inv : Inv working := by constructor <;> decide +kernel
theorem waiting_inv : Inv waiting := by constructor <;> decide +kernel
theorem ended_inv : Inv ended := by constructor <;> decide +kernel
theorem decoded_inv : Inv decoded := by constructor <;> decide +kernel
theorem silent_inv : Inv silent := by constructor <;> decide +kernel
theorem stopping_inv : Inv stopping := by constructor <;> decide +kernel

theorem working_handoff : HandoffInv working :=
  .inr ⟨by show working.hand.position ≠ -1 ∧ unpublished working = working.prod.run + uncounted working; decide +kernel,
    by
      show working.hand.workerDone = false ∧ working.hand.position = working.cons.lim ∧
        unread working + inHand working ≤ working.hw.batch
      decide +kernel⟩

theorem waiting_handoff : HandoffInv waiting :=
  .inr ⟨by
      show waiting.hand.position ≠ -1 ∧ waiting.prod.run = 0 ∧ waiting.prod.ppend = waiting.prod.wr ∧
        unpublished waiting = waiting.hw.batch
      decide +kernel,
    by show awaitClause waiting; unfold awaitClause; decide +kernel⟩

theorem ended_handoff : HandoffInv ended :=
  .inr ⟨by show ended.hand.position = -1; decide +kernel, by show awaitClause ended; unfold awaitClause; decide +kernel⟩

theorem silent_handoff : HandoffInv silent :=
  .inr ⟨by show silent.hand.position ≠ -1 ∧ unpublished silent = silent.prod.run + uncounted silent; decide +kernel,
    by
      show silent.hand.workerDone = false ∧ silent.hand.position = silent.cons.lim ∧
        unread silent + inHand silent ≤ silent.hw.batch
      decide +kernel⟩

theorem noNaN_of_all {v : List F64} (h : v.all (fun x => !fIsNaN x) = true) : noNaN v := by
  intro x hx
  simpa using List.all_eq_true.1 h x hx

/-! ## Witnesses: for each statement with hypotheses, values that meet them, clause by clause -/

theorem test_witness_DecodeAndEncodeAgree : decode 0x56000000#32 = .ok .cexit ∧ 0x56000000#32 = encode .cexit := by
  decide +kernel
theorem test_witness_StepRunsTheDecodedOperation :
    (working.setInputs [.op 0x51000000#32]).inputs = .op 0x51000000#32 :: [] ∧
    (match decode 0x51000000#32 with | .ok i => i = .cstep | .error _ => False) := ⟨rfl, rfl⟩
theorem test_witness_CommandWords :
    (0x01000001#32 ≠ 0x01000000#32 ∧ 0x01000001#32 ≠ 0x02000000#32) ∧ (0x02FFFFFF#32 ≠ 0x02000000#32) := by decide
theorem test_witness_ConfigurationWrites : ready.sup.sstate = .idle ∧ working.sup.sstate ≠ .idle ∧
    2 ≤ 2 ∧ 5 ≤ 5 ∧ (1 ≤ 1 ∨ 6 ≤ 1) := by decide +kernel
theorem test_witness_HostReads : 12 ≤ 12 ∧ Inv working ∧ ended.hand.position = -1 ∧
    working.hand.position = ((4 : Nat) : Int) ∧ 4 < 2 ^ 32 :=
  ⟨by decide, working_inv, by decide +kernel, by decide +kernel, by decide⟩
theorem test_witness_SumsRoundToNearestEven :
    fIsFinite 0x7FEFFFFFFFFFFFFF#64 = true ∧ fIsFinite 0x8000000000000001#64 = true ∧
    fFixed 0x7FEFFFFFFFFFFFFF#64 + fFixed 0x8000000000000001#64 ≠ 0 ∧
    fFixed fOne + fFixed 0xBFF0000000000000#64 = 0 ∧ fFixed fOne - fFixed fTwo ≠ 0 ∧
    fFixed fOne - fFixed fOne = 0 := by decide +kernel
theorem test_witness_ProductsAndQuotientsRoundToNearestEven :
    fIsFinite 0x0000000000000001#64 = true ∧ fIsFinite 0x7FEFFFFFFFFFFFFF#64 = true ∧
    fIsZero 0x0000000000000001#64 = false := by decide +kernel
theorem test_witness_IntegersConvertExactly : (2 ^ 53 : Int).natAbs ≤ 2 ^ 53 ∧ (-2 ^ 53 : Int).natAbs ≤ 2 ^ 53 := by
  decide +kernel
theorem test_witness_CmulResult :
    (engineAt bflyFirst .ready ∧ bflyDue bflyFirst ∧ bflyQ bflyFirst = 1 ∧ bflyFirst.spectral.buf.length = 4) ∧
    engineAt bflyAdvance .advance ∧ fIsFinite 0x7FE0000000000000#64 = true ∧ fIsFinite fTwo = true ∧
    2 ^ 2098 * fUnit ≤ fScaled 0x7FE0000000000000#64 * fScaled fTwo := by decide +kernel
theorem test_witness_CaddAndCsubResult :
    (engineAt bflyProduct .product ∧ bflyP bflyProduct = 0 ∧ bflyProduct.spectral.buf.length = 4) ∧
    engineAt bflySum .sum ∧
    fIsFinite 0x7FEFFFFFFFFFFFFF#64 = true ∧ fIsFinite 0x8000000000000000#64 = true := by decide +kernel
theorem test_witness_CdivsResult : (consAt silent .column ∧ silent.spectral.bin < silent.hw.chunk ∧
      silent.spectral.divided = false ∧ silent.spectral.acc[silent.spectral.bin]? = some cZero) ∧
    (fIsNaN fInf = false ∧ fIsZero fInf = false) ∧
    (fIsNaN 0x7FF0000000000001#64 = true ∧ fIsZero 0x8000000000000000#64 = true) ∧
    (fIsFinite fOne = true ∧ fIsInf fNegInf = true) ∧ (1 ≤ 1 ∧ 2 ^ 53 - 1 < 2 ^ 53) := by decide +kernel
theorem test_witness_MagnitudePhaseAndLogarithm : unitInUse silent ∧ unitInUse chunkDue ∧
    (consAt (after .cdivs silent) .column ∧ (after .cdivs silent).spectral.bin < silent.hw.chunk ∧
      (after .cdivs silent).spectral.divided = true ∧ silent.hw.accMode = .complex ∧
      (magnitude (after .cdivs silent)).hw.accMode = .magnitude) ∧
    (fIsZero 0x8000000000000000#64 = true ∧ fIsZero fZero = true) ∧ (fIsInf fNegInf = true) ∧
    (fIsInf fOne = false ∧ fIsInf 0x7FF8000000000000#64 = false ∧ fIsNaN 0x7FF8000000000000#64 = true) ∧
    (fIsFinite 0x7FEFFFFFFFFFFFFF#64 = true ∧
      fScaled 0x7FEFFFFFFFFFFFFF#64 ^ 2 + fScaled fZero ^ 2 ≤ ((2 ^ 53 - 1) * 2 ^ 2045) ^ 2) ∧
    (fIsFinite 0x0000000000000001#64 = true ∧ fLt fZero 0x0000000000000001#64 = true) ∧
    (fIsFinite 0x7FEFFFFFFFFFFFFF#64 = true ∧ fLe 0x0000000000000001#64 0x7FEFFFFFFFFFFFFF#64 = true) := by
  decide +kernel
theorem test_witness_BitrevPermutes : 7 < 2 ^ 3 ∧ 2 < 3 ∧ engineAt windowed .idle ∧
    windowed.spectral.buf.length = windowed.hw.chunk ∧ 3 < windowed.hw.chunk := by decide +kernel
theorem test_witness_TwidResult : engineAt passDue .pass ∧ 1 ≤ 1 ∧ 2 ≤ passDue.hw.log2Chunk ∧
    passDue.fft.l = 2 ^ 1 ∧ engineAt (after .bfpass passDue) .pass ∧ (after .bfpass passDue).fft.l = 2 ^ 2 := by
  decide +kernel
theorem test_witness_BflyResult : engineAt bflyFirst .ready ∧ bflyDue bflyFirst ∧
    bflyFirst.spectral.buf.length = bflyFirst.hw.chunk ∧ bflyFirst.fft.k + bflyFirst.fft.j = 0 ∧
    bflyFirst.fft.k + bflyFirst.fft.j + bflyFirst.fft.l / 2 = 1 ∧
    butterflyLegal 4 4 0 1 ∧ butterflyLegal 4 2 2 0 := by decide +kernel
theorem test_witness_UnitTwiddleKeepsTheEntry :
    fIsFinite (⟨fOne, 0x8000000000000000#64⟩ : Cplx).re = true ∧
    fIsFinite (⟨fOne, 0x8000000000000000#64⟩ : Cplx).im = true := by decide +kernel
theorem test_witness_PassInClosedForm : engineAt (after .bfpass passDue) .pass ∧ 1 < passDue.hw.log2Chunk ∧
    (after .bfpass passDue).fft.l = 2 ^ (1 + 1) ∧ (after .bfpass passDue).spectral.buf.length = passDue.hw.chunk ∧
    0 < passDue.hw.chunk / 2 ^ (1 + 1) ∧ 1 < 2 ^ 1 := by decide +kernel
theorem test_witness_FftIsBitrevThenPasses : engineAt windowed .idle ∧
    engineAt passDue .pass ∧ passLegal passDue.hw.chunk passDue.fft.l := by decide +kernel
theorem test_witness_SilenceTransformsToSilence : Params.hardware.log2Chunk ≤ 10 ∧
    (let s := silent.consTo .windowed;
      engineAt s .idle ∧ s.hw.log2Chunk ≤ 10 ∧ s.spectral.buf = List.replicate s.hw.chunk cZero) := by
  decide +kernel
theorem test_witness_RingCursorOperations : prodAt decoded .decoded ∧ decoded.ring.wf = true ∧
    consAt working .none ∧ (working.cons.rd : Int) ≠ working.cons.lim := by decide +kernel
theorem test_witness_RbwinResult : consAt chunkDue .chunk ∧ 3 < chunkDue.hw.chunk ∧ small.log2ChunkPred = 1 ∧
    small.lookaheadPred = 0 := by decide +kernel
theorem test_witness_SignalResult : waiting.sup.running = true ∧ waiting.sup.pabort = false ∧
    waiting.hand.workerDone = true ∧ waiting.prod.pstate = .sigWait ∧
    (waiting.setProd { waiting.prod with pstate := .sigWaitLast }).prod.pstate = .sigWaitLast ∧
    (waiting.setProd { waiting.prod with pstate := .sigWaitEnd }).prod.pstate = .sigWaitEnd ∧
    (waiting.setHand { waiting.hand with workerDone := false }).hand.workerDone = false ∧ prodWaits waiting := by
  decide +kernel
theorem test_witness_SignalCancellation : prodWaits (after .stop waiting) ∧ (after .stop waiting).sup.running = false ∧
    prodWaits (after .expire (after .stop waiting)) ∧ (after .expire (after .stop waiting)).sup.pabort = true := by
  decide +kernel
theorem test_witness_AwaitResult : (consAt started .none ∧ (started.cons.rd : Int) = started.cons.lim) ∧
    (waiting.cons.cstate = .await ∧ waiting.sup.running = true ∧ waiting.sup.cabort = false ∧
      waiting.hand.position = waiting.cons.prev) ∧
    (ended.hand.position ≠ ended.cons.prev ∧ ended.hand.position = -1) ∧
    ((after .signal waiting).hand.position ≠ (after .signal waiting).cons.prev ∧
      (after .signal waiting).hand.position ≠ -1 ∧ (after .signal waiting).cons.cstate = .await) ∧
    ((after .stop waiting).cons.cstate = .await ∧ (after .stop waiting).sup.running = false) := by decide +kernel
theorem test_witness_OwnershipOfState : exec .pstep working = .next (after .pstep working) ∧
    exec .cexit stopping = .next (after .cexit stopping) ∧ exec .stop working = .next (after .stop working) :=
  ⟨rfl, rfl, rfl⟩
theorem test_witness_HandoffInvariantKept : Inv working ∧ HandoffInv working ∧
    exec .pstep working = .next (after .pstep working) := ⟨working_inv, working_handoff, rfl⟩
theorem test_witness_RingBounds : Inv waiting ∧ HandoffInv waiting ∧ waiting.sup.sstate ≠ .idle ∧
    waiting.hand.position ≠ -1 ∧ Inv ended ∧ HandoffInv ended ∧ ended.sup.sstate ≠ .idle ∧
    ended.hand.position = -1 :=
  ⟨waiting_inv, waiting_handoff, by decide +kernel, by decide +kernel, ended_inv, ended_handoff,
    by decide +kernel, by decide +kernel⟩
theorem test_witness_PublicationsDiffer : Inv waiting ∧ HandoffInv waiting ∧ prodWaits waiting ∧
    waiting.cons.cstate = .await ∧ waiting.hand.workerDone = true :=
  ⟨waiting_inv, waiting_handoff, by decide +kernel, by decide +kernel, by decide +kernel⟩
theorem test_witness_RingReadsNeverMeetWrites : (Inv working ∧ HandoffInv working ∧
      working.cons.cstate = .drain ∧ working.prod.pstate = .run ∧ 3 < unread working ∧ 3 < working.hw.chunk ∧
      working.prod.run + uncounted working + 2 < working.hw.batch) ∧
    (Inv silent ∧ HandoffInv silent ∧ silent.cons.cstate = .drain ∧ silent.prod.pstate = .run ∧
      silent.cons.part ≠ .none) :=
  ⟨⟨working_inv, working_handoff, by decide +kernel, by decide +kernel, by decide +kernel, by decide +kernel,
    by decide +kernel⟩, silent_inv, silent_handoff, by decide +kernel, by decide +kernel, by decide +kernel⟩
theorem test_witness_Polls : (stopping.prod.pstate = .run ∧ stopping.sup.running = false) ∧
    (started.prod.pstate = .run ∧ started.sup.pabort = false ∧ started.sup.running = true ∧
      started.prod.part = .none ∧ started.prod.fetched = none ∧
      started.cfg.bpf.toNat ≤ started.src.bytes.length ∧ started.src.tail ≠ .more) ∧
    (stopping.cons.cstate = .drain ∧ working.cons.cstate = .drain ∧ working.sup.cabort = false ∧
      working.sup.running = true ∧ working.cons.part = .none ∧
      (working.cons.rd : Int) ≠ working.cons.lim ∧ started.cons.cstate = .drain ∧ started.cons.part = .none ∧
      (started.cons.rd : Int) = started.cons.lim) := by decide +kernel
theorem test_witness_PfetchResult : (prodAt started .none ∧ started.prod.fetched = none ∧
      started.src.bytes = [0xE8#8, 0x03#8] ++ [0x18#8, 0xFC#8] ∧ [0xE8#8, 0x03#8].length = started.cfg.bpf.toNat) ∧
    ([0x18#8].length < started.cfg.bpf.toNat ∧ started.src.tail = .eos) ∧
    (∀ t ∈ [SrcTail.more, .eos, .fail],
      prodAt (started.setSrc { started.src with bytes := [0x18#8], tail := t }) .none ∧
      (after .pfetch (started.setSrc { started.src with bytes := [0x18#8], tail := t })).prod.fetched =
        match t with
        | .more => none
        | .eos => some .eos
        | .fail => some .fail) := by decide +kernel
theorem test_witness_SampleAssembly : 1 ≤ 4 ∧ 4 ≤ 4 ∧ 4 ≤ [0x7F#8, 0xFF#8, 0xFF#8, 0xFF#8].length ∧ 1 ≤ 1 := by decide
theorem test_witness_SampleEncodeDecodeAgree : (1 ≤ 4 ∧ (-2 ^ (8 * 4 - 1) : Int) ≤ -2147483648 ∧
      (2147483647 : Int) < 2 ^ (8 * 4 - 1)) ∧ [0x80#8].length = 1 := by decide
theorem test_witness_PdecodeAndPstepResult : prodAt working .none ∧
    working.prod.fetched = some (.frame [0xB8#8, 0x0B#8]) ∧ working.ring.wf = true := by decide +kernel
theorem test_witness_PeosResult : prodAt (working.setProd { working.prod with fetched := some .eos }) .none ∧
    0 < working.prod.run ∧ prodAt (working.setProd { working.prod with run := 0, fetched := some .eos }) .none := by
  decide +kernel
theorem test_witness_PfailResult : prodAt (working.setProd { working.prod with fetched := some .fail }) .none ∧
    (after .pfail (working.setProd { working.prod with fetched := some .fail })).prod.pexit = .failed := by
  decide +kernel
theorem test_witness_CooperativeExit : (stopping.prod.pstate = .run ∧ stopping.sup.pabort = false ∧
      stopping.sup.running = false) ∧
    ((after .expire stopping).prod.pstate = .run ∧ (after .expire stopping).sup.pabort = true) ∧
    (stopping.cons.cstate = .drain ∧ stopping.sup.cabort = false) ∧
    ((after .expire stopping).cons.cstate = .drain ∧ (after .expire stopping).sup.cabort = true) := by
  decide +kernel
theorem test_witness_CstepResult : consAt working .none ∧ (working.cons.rd : Int) ≠ working.cons.lim ∧
    working.spectral.bin = 0 ∧ working.spectral.divided = false ∧
    working.hw.chunk ∣ 3 + 1 ∧ 9 + 1 = working.sup.spc ∧ chunkDue.cons.part = .chunk ∧
    (after .cstep (after .rbrd (working.setCons { working.cons with cnt := 9, nchunk := 1 }))).cons.part = .column ∧
    (after .cstep (after .rbrd working)).cons.part = .none := by decide +kernel
theorem test_witness_ChunkOperations : consAt chunkDue .chunk ∧ (consAt gathered .gathered ∧
      gathered.spectral.win.length = gathered.hw.chunk) ∧
    (consAt transformed .transformed ∧ transformed.spectral.acc.length = transformed.hw.chunk ∧
      transformed.spectral.buf.length = transformed.hw.chunk ∧ transformed.spectral.acc[3]? = some cZero ∧
      transformed.hw.accMode = .complex) ∧
    (consAt (magnitude transformed) .transformed ∧ (magnitude transformed).hw.accMode = .magnitude) := by
  decide +kernel
theorem test_witness_CcolResult : (consAt silent .column ∧ silent.spectral.bin = 0 ∧ silent.spectral.divided = false ∧
      silent.spectral.acc.length = silent.hw.chunk ∧ silent.spectral.v.length = silent.hw.chunk ∧
      silent.hw.accMode = .complex) ∧
    (consAt (magnitude silent) .column ∧ (magnitude silent).hw.accMode = .magnitude) := by decide +kernel
theorem test_witness_ColumnsStayInUnitIntervalWhereNoLevelIsNaN :
    step (silent.setInputs [.op 0x55000000#32]) = .next (opCcol (silent.setInputs [])) ∧
    columnsInUnitInterval (silent.setInputs [.op 0x55000000#32]) ∧ noNaN (opCcol (silent.setInputs [])).spectral.v :=
  ⟨stepIf_of (silent.setInputs []) (opCcol (silent.setInputs [])) _ (by decide +kernel),
    fun c hc => absurd (show c ∈ ([] : List (List F64)) from hc) (List.not_mem_nil),
    by rw [opCcol_v]; exact noNaN_of_all (by decide +kernel)⟩
theorem test_witness_ColumnExtremes : [fOne, fTwo] ≠ [] ∧ noNaN [fOne, fTwo] ∧
    rangeIsNormal (fSub (greatestOf [fOne, fTwo]) (leastOf [fOne, fTwo])) = true ∧
    [fOne, fTwo][0]? = some (leastOf [fOne, fTwo]) ∧
    rangeIsNormal (fSub (greatestOf [fOne]) (leastOf [fOne])) = false :=
  ⟨by decide, noNaN_of_all (by decide +kernel), by decide +kernel, by decide +kernel, by decide +kernel⟩
theorem test_witness_SilentColumnIsFlat : consAt silent .column ∧ silent.spectral.bin = 0 ∧
    silent.spectral.divided = false ∧ silent.cons.ncol + 1 < silent.cfg.pixcols.toNat ∧ 1 ≤ silent.cons.nchunk ∧
    silent.spectral.acc = List.replicate silent.hw.chunk cZero := by decide +kernel
theorem test_witness_StartRefusals : working.sup.sstate ≠ .idle ∧ ready.sup.sstate = .idle ∧
    (State.powerOn small).regs.pixcols = 0#32 ∧ (layoutBps 0x00005015#32).toNat ∉ [1, 2, 3, 4] ∧
    ready.regs.pixcols ≠ 0#32 ∧ (layoutBps ready.regs.layout).toNat ∈ [1, 2, 3, 4] ∧
    layoutNch ready.regs.layout ≠ 0#8 ∧
    (layoutBps ready.regs.layout).toNat * (layoutNch ready.regs.layout).toNat ≤ (layoutBpf ready.regs.layout).toNat ∧
    ready.src.isOpen = true ∧ (State.powerOn small).src.isOpen = false := by decide +kernel
theorem test_witness_StartBuildsContext : ready.sup.sstate = .idle ∧
    configLegal ready.regs.pixcols ready.regs.layout = true ∧ ready.src.isOpen = true := by decide +kernel
theorem test_witness_StopResult : (working.sup.sstate = .run ∧ working.prod.part = .none ∧ working.cons.part = .none) ∧
    (Inv decoded ∧ decoded.sup.sstate = .run ∧ decoded.prod.part = .decoded) ∧
    (Inv silent ∧ silent.sup.sstate = .run ∧ silent.cons.part = .column) ∧
    (Inv bflyProduct ∧ bflyProduct.sup.sstate = .run ∧ bflyProduct.cons.part = .windowed ∧
      bflyProduct.fft.phase = .product) ∧
    (ready.sup.sstate = .idle ∧ stopping.sup.sstate = .stopping ∧ (after .expire stopping).sup.sstate = .aborting) :=
  ⟨by decide +kernel, ⟨decoded_inv, by decide +kernel, by decide +kernel⟩,
    ⟨silent_inv, by decide +kernel, by decide +kernel⟩,
    ⟨by constructor <;> decide +kernel, by decide +kernel, by decide +kernel, by decide +kernel⟩, by decide +kernel⟩
theorem test_witness_ExpireAndJoinResult : (stopping.sup.sstate = .stopping ∧ stopping.prod.pstate ≠ .exit) ∧
    ((after .cexit (after .pexit stopping)).sup.sstate = .stopping ∧
      (after .cexit (after .pexit stopping)).prod.pstate = .exit ∧
      (after .cexit (after .pexit stopping)).cons.cstate = .exit) := by decide +kernel
theorem test_witness_StepsNotEnabledChangeNothing : ¬ prodWorks waiting ∧ decoded.prod.part ≠ .none ∧
    working.prod.part ≠ .decoded ∧ decoded.prod.part = .decoded ∧
    working.prod.fetched ≠ none ∧ working.prod.fetched ≠ some .eos ∧ working.prod.fetched ≠ some .fail ∧
    (started.prod.fetched = none ∧ started.prod.part = .none) ∧
    ¬ prodWaits working ∧ (ended.prod.pstate ≠ .run ∧ ¬ prodWaits ended) ∧ ¬ prodCancelled waiting ∧
    ¬ consWorks waiting ∧ (silent.cons.part ≠ .none ∧ silent.cons.part ≠ .taken ∧ silent.cons.cstate ≠ .await) ∧
    silent.cons.part ≠ .chunk ∧ silent.cons.part ≠ .gathered ∧ silent.cons.part ≠ .transformed ∧
    silent.cons.part ≠ .accumulated ∧ working.cons.part ≠ .column ∧
    (after .cdivs silent).spectral.divided = true ∧
    ((after .cabs (after .cdivs silent)).spectral.bin ≠ 0 ∧ 1 ≠ silent.hw.chunk) ∧
    ((waiting.cons.rd : Int) = waiting.cons.lim ∧ waiting.cons.part = .none) ∧
    (ready.cons.cstate ≠ .drain ∧ ready.cons.cstate ≠ .await) ∧ ¬ consCancelled waiting ∧
    working.sup.sstate ≠ .stopping ∧ working.sup.sstate ≠ .aborting ∧ stopping.prod.pstate ≠ .exit ∧
    ((after .cexit (after .pexit stopping)).prod.pstate = .exit ∧
      (after .cexit (after .pexit stopping)).cons.cstate = .exit) := by decide +kernel
theorem test_witness_StepsNotEnabledChangeNothing_units : ¬ consAt silent .windowed ∧ ¬ engineAt passDue .idle ∧
    ¬ (engineAt passDue .pass ∧ passDue.hw.chunk < passDue.fft.l) ∧
    ¬ (engineAt bflyFirst .pass ∧ passLegal bflyFirst.hw.chunk bflyFirst.fft.l) ∧
    ¬ (engineAt bflyFirst .ready ∧ bflyFirst.fft.k = bflyFirst.hw.chunk) := by decide +kernel
theorem test_witness_StepsNotEnabledChangeNothing_butterfly :
    ¬ (engineAt bflySum .ready ∧ bflyDue bflySum) ∧ ¬ engineAt bflySum .difference ∧
    ¬ engineAt bflySum .advance ∧ ¬ engineAt bflySum .product ∧ ¬ engineAt bflyFirst .sum := by decide +kernel
theorem test_witness_StepsNotEnabledChangeNothing_column : ¬ consAt bflySum .column ∧
    silent.spectral.divided = false ∧ working.cons.part = .none ∧ (after .rbrd working).cons.part = .taken ∧
    ¬ passLegal 4 8 ∧ ¬ passLegal 4 3 ∧ ¬ butterflyLegal 4 4 0 2 := by decide +kernel
theorem test_witness_StepsNotEnabledChangeNothing_idle : Inv ready ∧ ready.sup.sstate = .idle ∧
    Instr.carg ≠ .start := ⟨by constructor <;> decide +kernel, by decide +kernel, by decide⟩
theorem test_witness_FlagsStickyAndNeverRead :
    exec .pstep (raise .busy working) = .next (after .pstep (raise .busy working)) ∧
    Instr.pstep ≠ .start ∧ (raise .busy working).flags.busy = true ∧ working.sup.sstate ≠ .idle :=
  ⟨rfl, by decide, by decide +kernel, by decide +kernel⟩
theorem test_witness_AgentsMoveAlongListedEdges : Inv working ∧ exec .pstep working = .next (after .pstep working) ∧
    Inv ended ∧ ended.prod.pexit ≠ .none ∧ exec .await ended = .next (after .await ended) :=
  ⟨working_inv, rfl, ended_inv, by decide +kernel, rfl⟩
theorem test_witness_ColumnLogOnlyGrows :
    step (silent.setInputs [.op 0x02000000#32]) = .next (after .stop (silent.setInputs [])) ∧
    (let s := (silent.setCols [[fZero, fOne, fZero, fOne]]).setCons { silent.cons with ncol := 1 };
      0 < s.cons.ncol ∧ 3 < s.hw.chunk ∧ s.cols[0]? = some [fZero, fOne, fZero, fOne] ∧
      [fZero, fOne, fZero, fOne][3]? = some fOne) :=
  ⟨rfl, by decide +kernel⟩
theorem test_witness_ConfigurationFixedInARun : working.sup.sstate ≠ .idle ∧
    step (working.hostWrites 2 7#64) = .next (raise .busy working) := ⟨by decide +kernel, rfl⟩
theorem test_witness_FrozenOnceStopped : Inv stopping ∧ stopping.sup.running = false ∧ stopping.sup.sstate ≠ .idle ∧
    exec .start stopping = .next (after .start stopping) := ⟨stopping_inv, by decide +kernel, by decide +kernel, rfl⟩
theorem test_witness_StopPathReachesIdle : Inv working ∧ working.sup.sstate ≠ .idle ∧
    Instr.start ∉ [Instr.pstep, .expire, .await] := ⟨working_inv, by decide +kernel, by decide⟩
/-- CONS is gone with `workerDone` clear, and PROD waits. -/
def blocked : State :=
  (waiting.setHand { waiting.hand with workerDone := false }).setCons
    { waiting.cons with cstate := .exit, cexit := .complete }
theorem test_witness_ProducerBlockedOnceConsumerGone : Inv blocked ∧ Instr.signal ≠ .start ∧
    exec .signal blocked = .next (after .signal blocked) ∧ blocked.cons.cstate = .exit ∧
    blocked.hand.workerDone = false ∧ prodWaits blocked ∧ blocked.sup.sstate = .run ∧
    blocked.sup.running = true ∧ blocked.sup.pabort = false :=
  ⟨by constructor <;> decide +kernel, by decide, rfl, by decide +kernel, by decide +kernel, by decide +kernel,
    by decide +kernel, by decide +kernel, by decide +kernel⟩
theorem test_witness_StepKeepsInvariant : Inv working ∧ step (working.setInputs [.op 0x02000000#32]) =
    .next (after .stop (working.setInputs [])) := ⟨working_inv, rfl⟩
theorem test_witness_ProducerAndConsumerCommute : Inv working ∧ HandoffInv working ∧ .rbwr ∈ prodSteps ∧
    .rbwin ∈ consSteps := ⟨working_inv, working_handoff, by decide, by decide⟩

end Sys2Proof.Tests
end

section
/-! PROOFS. One step of the block: a listed operation word is taken, decoded and run (R9, R114). -/

namespace Sys2Proof.Machine

/-- Settles O5: the listed word is the input taken, and its decoding picks the operation that is run. -/
theorem stepRunsTheDecodedOperation : Obligations.StepRunsTheDecodedOperation := by
  intro s w i rest hinputs hdecode
  rw [step, takeInput_of_cons s hinputs]
  simp only [applyInput, hdecode]
  rfl

end Sys2Proof.Machine
end

section
/-! PROOFS. Reading a packed binary64, the exact case of rounding, and the conversion of integers (R12, R13). -/

namespace Sys2Proof.Machine

/-! ## The fields of a packed value -/

theorem fPack_toNat (sg : Bool) {mag : Nat} (h : mag < 2 ^ 63) :
    (fPack sg mag).toNat = (if sg then 2 ^ 63 else 0) + mag := by
  rw [fPack, BitVec.toNat_ofNat]
  apply Nat.mod_eq_of_lt
  split <;> omega

theorem fMag_fPack (sg : Bool) {mag : Nat} (h : mag < 2 ^ 63) : fMag (fPack sg mag) = mag := by
  rw [fMag, fPack_toNat sg h]
  split <;> omega

theorem fSign_fPack (sg : Bool) {mag : Nat} (h : mag < 2 ^ 63) : fSign (fPack sg mag) = sg := by
  rw [fSign, fPack_toNat sg h]
  cases sg
  · exact decide_eq_false (by rw [if_neg Bool.false_ne_true]; omega)
  · exact decide_eq_true (by rw [if_pos rfl]; omega)

/-- The magnitude whose significand is `m` and whose exponent field is `e + 1` is `m * 2^e` units. -/
theorem fScaled_of_fMag {x : F64} {m e : Nat} (hlo : 2 ^ 52 ≤ m) (hhi : m < 2 ^ 53)
    (hx : fMag x = 2 ^ 52 * e + m) : fScaled x = m * 2 ^ e := by
  have hexp : fMag x / 2 ^ 52 = e + 1 := by omega
  have hfrac : 2 ^ 52 + fMag x % 2 ^ 52 = m := by omega
  rw [fScaled, hexp, hfrac, if_neg (Nat.succ_ne_zero e), Nat.add_sub_cancel]

/-- A finite value in units, from its sign and its magnitude in units. -/
theorem fFixed_of_fScaled {x : F64} {n u : Int} (hsign : fSign x = decide (n < 0))
    (hscaled : (fScaled x : Int) = u * n.natAbs) : fFixed x = u * n := by
  rw [fFixed, hsign, hscaled]
  by_cases hn : n < 0
  · rw [if_pos (decide_eq_true hn), Int.ofNat_natAbs_of_nonpos hn.le, Int.mul_neg, Int.neg_neg]
  · rw [if_neg (by simpa using hn), Int.natAbs_of_nonneg (not_lt.1 hn)]

/-! ## Rounding what needs no rounding -/

theorem roundEven_of_dvd (m : Nat) {den : Nat} (h : 0 < den) : roundEven (m * den) den = m := by
  rw [roundEven, Nat.mul_mod_left, if_pos (by omega), Nat.mul_div_cancel m h]

/-- A significand of 53 bits, `e` places up, has `e` bits beyond those of a significand. -/
theorem excessBits_significand {m : Nat} (e : Nat) (hlo : 2 ^ 52 ≤ m) (hhi : m < 2 ^ 53) :
    excessBits (m * 2 ^ e) = e := by
  have hpos : 0 < m := by omega
  have hlog : Nat.log2 (m * 2 ^ e) = 52 + e := by
    rw [Nat.log2_eq_iff (Nat.mul_ne_zero hpos.ne' (by positivity))]
    constructor
    · rw [Nat.pow_add]
      exact Nat.mul_le_mul_right _ hlo
    · rw [show 52 + e + 1 = 53 + e by omega, Nat.pow_add]
      exact Nat.mul_lt_mul_of_pos_right hhi (by positivity)
  rw [excessBits, hlog, Nat.add_sub_cancel_left]

/-- A whole number of units with a significand of 53 bits, in the range of the finite values, is its own
rounding. -/
theorem roundMag_significand {m e : Nat} (hlo : 2 ^ 52 ≤ m) (hhi : m < 2 ^ 53) (he : e ≤ 2045) :
    roundMag (m * 2 ^ e) 1 = 2 ^ 52 * e + m := by
  have hfinite : 2 ^ 52 * e + m ≤ infMag := by rw [infMag]; omega
  rw [roundMag, Nat.div_one, excessBits_significand e hlo hhi, Nat.one_mul,
    roundEven_of_dvd m (by positivity), Nat.min_eq_right hfinite]

/-- Such a number of units is the value of its rounding, which has the sign asked for and is finite. -/
theorem fRound_significand (sg : Bool) {m e : Nat} (hlo : 2 ^ 52 ≤ m) (hhi : m < 2 ^ 53) (he : e ≤ 2045) :
    fIsFinite (fRound sg (m * 2 ^ e) 1) = true ∧ fSign (fRound sg (m * 2 ^ e) 1) = sg ∧
      fScaled (fRound sg (m * 2 ^ e) 1) = m * 2 ^ e := by
  have hlt : 2 ^ 52 * e + m < infMag := by rw [infMag]; omega
  have hbits : 2 ^ 52 * e + m < 2 ^ 63 := by omega
  rw [fRound, roundMag_significand hlo hhi he]
  exact ⟨by rw [fIsFinite, fMag_fPack sg hbits, decide_eq_true hlt], fSign_fPack sg hbits,
    fScaled_of_fMag hlo hhi (fMag_fPack sg hbits)⟩

/-! ## Integers -/

theorem fOfInt_zero : fOfInt 0 = fZero := by
  unfold fOfInt
  rw [Int.natAbs_zero, Nat.mul_zero]
  decide

/-- A positive integer up to `2^53`, in units, is a significand of 53 bits some places up. -/
theorem exists_significand_of_le {k : Nat} (hpos : 0 < k) (hle : k ≤ 2 ^ 53) :
    ∃ m e, 2 ^ 52 ≤ m ∧ m < 2 ^ 53 ∧ e ≤ 2045 ∧ fUnit * k = m * 2 ^ e := by
  rcases hle.lt_or_eq with hlt | rfl
  · have hlog : Nat.log2 k < 53 := (Nat.log2_lt hpos.ne').2 hlt
    have hself : 2 ^ Nat.log2 k ≤ k := Nat.log2_self_le hpos.ne'
    have hnext : k < 2 ^ (Nat.log2 k + 1) := Nat.lt_log2_self
    refine ⟨k * 2 ^ (52 - Nat.log2 k), 1022 + Nat.log2 k, ?_, ?_, by omega, ?_⟩
    · calc 2 ^ 52 = 2 ^ Nat.log2 k * 2 ^ (52 - Nat.log2 k) := by rw [← Nat.pow_add]; congr 1; omega
        _ ≤ k * 2 ^ (52 - Nat.log2 k) := Nat.mul_le_mul_right _ hself
    · calc k * 2 ^ (52 - Nat.log2 k) < 2 ^ (Nat.log2 k + 1) * 2 ^ (52 - Nat.log2 k) :=
            Nat.mul_lt_mul_of_pos_right hnext (by positivity)
        _ = 2 ^ 53 := by rw [← Nat.pow_add]; congr 1; omega
    · rw [Nat.mul_assoc, ← Nat.pow_add, fUnit, Nat.mul_comm]
      congr 2
      omega
  · refine ⟨2 ^ 52, 1074 + 1, le_rfl, by omega, by omega, ?_⟩
    rw [pow_succ 2 1074, fUnit]
    generalize 2 ^ 1074 = u
    omega

/-- Settles O11: a nonzero integer of the range is a significand of 53 bits in units, so its rounding is
exact. -/
theorem integersConvertExactly : Obligations.IntegersConvertExactly := by
  intro n hn
  rcases Nat.eq_zero_or_pos n.natAbs with hzero | hpos
  · obtain rfl : n = 0 := Int.natAbs_eq_zero.1 hzero
    rw [fOfInt_zero, Int.mul_zero]
    exact ⟨by decide, by decide, fun _ => rfl⟩
  · obtain ⟨m, e, hlo, hhi, he, hunits⟩ := exists_significand_of_le hpos hn
    have hround : fOfInt n = fRound (n < 0) (m * 2 ^ e) 1 := by unfold fOfInt; rw [hunits]
    obtain ⟨hfinite, hsign, hscaled⟩ := fRound_significand (n < 0) hlo hhi he
    rw [← hround] at hfinite hsign hscaled
    refine ⟨hfinite, fFixed_of_fScaled hsign ?_, ?_⟩
    · rw [hscaled, ← hunits, Int.natCast_mul]
    · rintro rfl
      exact absurd hpos (lt_irrefl 0)

end Sys2Proof.Machine
end

section
/-! PROOFS. The enabling condition of each operation, said once: an operation that is not enabled changes
nothing (R14, R27, R281; log entry 2). -/

namespace Sys2Proof.Machine

variable {s : State} {i : Instr}

/-! ## Enabling -/

/-- The condition under which an operation may change the state (R14, R27). The polls never do (R200, R220); a
START always may, since a refused one records why (R250). -/
def enabled (i : Instr) (s : State) : Prop :=
  match i with
  | .start => True
  | .stop => s.sup.sstate = .run
  | .expire => s.sup.sstate = .stopping ∧ someAgentLive s
  | .join => (s.sup.sstate = .stopping ∨ s.sup.sstate = .aborting) ∧ s.prod.pstate = .exit ∧ s.cons.cstate = .exit
  | .cmul => (engineAt s .ready ∧ bflyDue s) ∨ engineAt s .advance
  | .cadd => engineAt s .product
  | .csub => engineAt s .sum
  | .cdivs => consAt s .column ∧ s.spectral.bin < s.hw.chunk ∧ s.spectral.divided = false
  | .cabs => consAt s .column ∧ s.spectral.bin < s.hw.chunk ∧ s.spectral.divided = true
  | .carg => unitInUse s
  | .fft => engineAt s .idle ∨ (engineAt s .pass ∧ s.hw.chunk < s.fft.l)
  | .bitrev => engineAt s .idle
  | .twid => engineAt s .pass ∧ passLegal s.hw.chunk s.fft.l
  | .bfly => (engineAt s .ready ∧ bflyDue s) ∨ engineAt s .difference
  | .bfpass => (engineAt s .pass ∧ passLegal s.hw.chunk s.fft.l) ∨ (engineAt s .ready ∧ s.fft.k = s.hw.chunk)
  | .rbwr => prodAt s .decoded
  | .rbrd => consAt s .none ∧ (s.cons.rd : Int) ≠ s.cons.lim
  | .rbwin => consAt s .chunk
  | .signal => prodWaits s
  | .await => s.cons.cstate = .await ∨ (consAt s .none ∧ (s.cons.rd : Int) = s.cons.lim)
  | .ppoll => False
  | .pfetch => prodAt s .none ∧ s.prod.fetched = none
  | .pdecode => prodAt s .none ∧ hasFrame s = true
  | .pstep => (prodAt s .none ∧ hasFrame s = true) ∨ prodAt s .written
  | .peos => prodAt s .none ∧ s.prod.fetched = some .eos
  | .pfail => prodAt s .none ∧ s.prod.fetched = some .fail
  | .pexit => (s.prod.pstate = .run ∨ prodWaits s) ∧ prodCancelled s
  | .cpoll => False
  | .cstep => (consAt s .none ∧ (s.cons.rd : Int) ≠ s.cons.lim) ∨ consAt s .taken
  | .window => consAt s .gathered
  | .acc => consAt s .transformed
  | .cchunk => consAt s .chunk ∨ consAt s .accumulated
  | .ccol => consAt s .column ∧ s.spectral.divided = false ∧ (s.spectral.bin = 0 ∨ s.spectral.bin = s.hw.chunk)
  | .cexit => (s.cons.cstate = .drain ∨ s.cons.cstate = .await) ∧ consCancelled s

/-- An operation of two cases, neither of which holds, changes nothing. -/
theorem next_of_neither {c d : Prop} [Decidable c] [Decidable d] {t u : State} (h : ¬(c ∨ d)) :
    (Host.Outcome.next (if c then t else if d then u else s) : Result) = .next s := by
  rw [if_neg fun hc => h (.inl hc), if_neg fun hd => h (.inr hd)]

/-- An operation that is not enabled changes nothing (log entry 2). -/
theorem exec_of_not_enabled (h : ¬enabled i s) : exec i s = .next s := by
  cases i with
  | start => exact absurd trivial h
  | ppoll | cpoll => rfl
  | cmul | fft | bfly | bfpass | pstep | cstep | cchunk => exact next_of_neither h
  | signal => exact congrArg Host.Outcome.next (if_neg h)
  | await =>
    exact congrArg Host.Outcome.next
      ((if_neg fun hwaits => h (.inl hwaits)).trans (if_neg fun hdrained => h (.inr hdrained)))
  | _ => exact stepIf_of_not s _ _ h

theorem hasFrame_iff : hasFrame s = true ↔ ∃ f, s.prod.fetched = some (.frame f) := by
  unfold hasFrame
  split
  case h_1 f hfetched => exact iff_of_true rfl ⟨f, hfetched⟩
  case h_2 hnone => exact iff_of_false Bool.false_ne_true fun ⟨f, hfetched⟩ => hnone f hfetched

/-! ## What the operations of an agent, of a composite and of a unit need -/

theorem prodWorks_of_enabled (hi : i ∈ [Instr.rbwr, .pfetch, .pdecode, .pstep, .peos, .pfail])
    (h : enabled i s) : prodWorks s := by
  simp only [List.mem_cons, List.not_mem_nil, or_false] at hi
  rcases hi with rfl | rfl | rfl | rfl | rfl | rfl
  · exact h.1
  · exact h.1.1
  · exact h.1.1
  · exact h.elim (fun hwhole => hwhole.1.1) And.left
  · exact h.1.1
  · exact h.1.1

theorem prodPart_none_of_enabled (hi : i ∈ [Instr.pfetch, .pdecode, .peos, .pfail]) (h : enabled i s) :
    s.prod.part = .none := by
  simp only [List.mem_cons, List.not_mem_nil, or_false] at hi
  rcases hi with rfl | rfl | rfl | rfl <;> exact h.1.2

theorem consWorks_of_enabled (hi : i ∈ [Instr.rbrd, .rbwin, .cstep, .window, .acc, .cchunk, .ccol])
    (h : enabled i s) : consWorks s := by
  simp only [List.mem_cons, List.not_mem_nil, or_false] at hi
  rcases hi with rfl | rfl | rfl | rfl | rfl | rfl | rfl
  · exact h.1.1
  · exact h.1
  · exact h.elim (fun hwhole => hwhole.1.1) And.left
  · exact h.1
  · exact h.1
  · exact h.elim And.left And.left
  · exact h.1.1

/-- The operations of an FFT are taken only where CONS is at the FFT of a CCHUNK (R225, R294). -/
theorem windowed_of_enabled (hi : i ∈ [Instr.fft, .bitrev, .twid, .bfly, .bfpass, .cmul, .cadd, .csub])
    (h : enabled i s) : consAt s .windowed := by
  simp only [List.mem_cons, List.not_mem_nil, or_false] at hi
  rcases hi with rfl | rfl | rfl | rfl | rfl | rfl | rfl | rfl
  · exact h.elim And.left fun hend => hend.1.1
  · exact h.1
  · exact h.1.1
  · exact h.elim (fun hready => hready.1.1) And.left
  · exact h.elim (fun hpass => hpass.1.1) fun hend => hend.1.1
  · exact h.elim (fun hready => hready.1.1) And.left
  · exact h.1
  · exact h.1

theorem unitInUse_of_consAt {p : ConsPart} (h : consAt s p) (hnone : p ≠ .none) (htaken : p ≠ .taken) :
    unitInUse s :=
  ⟨h.1, h.2 ▸ hnone, h.2 ▸ htaken⟩

/-- The FFT engine and the complex unit work for CONS alone, at a CCHUNK or a CCOL (R294). -/
theorem unitInUse_of_enabled (hi : i ∈ [Instr.cmul, .cadd, .csub, .cdivs, .cabs, .carg, .fft, .bitrev, .twid,
      .bfly, .bfpass]) (h : enabled i s) : unitInUse s := by
  by_cases hfft : i ∈ [Instr.fft, .bitrev, .twid, .bfly, .bfpass, .cmul, .cadd, .csub]
  · exact unitInUse_of_consAt (windowed_of_enabled hfft h) nofun nofun
  · have hcolumn : i = .cdivs ∨ i = .cabs ∨ i = .carg := by
      simp only [List.mem_cons, List.not_mem_nil, or_false] at hi hfft
      tauto
    rcases hcolumn with rfl | rfl | rfl
    · exact unitInUse_of_consAt h.1 nofun nofun
    · exact unitInUse_of_consAt h.1 nofun nofun
    · exact h

/-! ## S_IDLE -/

/-- Some agent is at work: one of the three state registers is not at idle (R26). -/
def someAgentBusy (s : State) : Prop := s.sup.sstate ≠ .idle ∨ s.prod.pstate ≠ .idle ∨ s.cons.cstate ≠ .idle

theorem someAgentBusy_of_prodWorks (h : prodWorks s) : someAgentBusy s := by
  refine .inr (.inl ?_)
  rw [h.1]; nofun

theorem someAgentBusy_of_prodWaits (h : prodWaits s) : someAgentBusy s := by
  refine .inr (.inl ?_)
  rcases h with h | h | h <;> rw [h] <;> nofun

theorem someAgentBusy_of_consWorks (h : consWorks s) : someAgentBusy s := by
  refine .inr (.inr ?_)
  rw [h.1]; nofun

/-- Every operation but START is taken where some agent is at work (R27, R296). -/
theorem someAgentBusy_of_enabled (hi : i ≠ .start) (h : enabled i s) : someAgentBusy s := by
  cases i with
  | start => exact absurd rfl hi
  | ppoll | cpoll => exact h.elim
  | stop => exact .inl (by rw [show s.sup.sstate = .run from h]; nofun)
  | expire => exact .inl (by rw [h.1]; nofun)
  | join => exact .inr (.inl (by rw [h.2.1]; nofun))
  | signal => exact someAgentBusy_of_prodWaits h
  | pexit =>
    rcases h.1 with hrun | hwaits
    · exact .inr (.inl (by rw [hrun]; nofun))
    · exact someAgentBusy_of_prodWaits hwaits
  | await =>
    rcases h with hwaits | ⟨hdrains, -⟩
    · exact .inr (.inr (by rw [hwaits]; nofun))
    · exact someAgentBusy_of_consWorks hdrains.1
  | cexit => exact .inr (.inr (by rcases h.1 with h | h <;> rw [h] <;> nofun))
  | rbwr | pfetch | pdecode | pstep | peos | pfail =>
    exact someAgentBusy_of_prodWorks (prodWorks_of_enabled (by decide) h)
  | rbrd | rbwin | cstep | window | acc | cchunk | ccol =>
    exact someAgentBusy_of_consWorks (consWorks_of_enabled (by decide) h)
  | cmul | cadd | csub | cdivs | cabs | carg | fft | bitrev | twid | bfly | bfpass =>
    exact someAgentBusy_of_consWorks (unitInUse_of_enabled (by decide) h).1

/-- In S_IDLE the two workers are idle too (R26). -/
theorem not_someAgentBusy_of_idle (hinv : Inv s) (hidle : s.sup.sstate = .idle) : ¬someAgentBusy s := by
  rintro (hsup | hprod | hcons)
  · exact hsup hidle
  · exact hprod (hinv.prodIdle.2 hidle)
  · exact hcons (hinv.consIdle.2 hidle)

/-! ## The statement -/

/-- Settles O51: each clause names a condition that the operation's enabling contradicts. -/
theorem stepsNotEnabledChangeNothing : Obligations.StepsNotEnabledChangeNothing := by
  intro s
  refine ⟨
    -- PROD and the parts of a PSTEP
    fun h i hi => exec_of_not_enabled fun e => h (prodWorks_of_enabled hi e),
    fun h i hi => exec_of_not_enabled fun e => h (prodPart_none_of_enabled hi e),
    fun h => exec_of_not_enabled fun e => h e.2,
    fun h => exec_of_not_enabled ?pstepDecoded,
    fun h => exec_of_not_enabled fun e => h e.2,
    fun h => exec_of_not_enabled fun e => (hasFrame_iff.1 e.2).elim h,
    fun h hpart => exec_of_not_enabled ?pstepNoFrame,
    fun h => exec_of_not_enabled fun e => h e.2,
    fun h => exec_of_not_enabled fun e => h e.2,
    -- SIGNAL and PEXIT
    fun h => exec_of_not_enabled h,
    fun hrun hwaits => exec_of_not_enabled fun e => e.1.elim hrun hwaits,
    fun h => exec_of_not_enabled fun e => h e.2,
    -- CONS and the parts of a CSTEP
    fun h i hi => exec_of_not_enabled fun e => h (consWorks_of_enabled hi e),
    fun h => exec_of_not_enabled fun e => h e.1.2,
    fun hpart hstate => exec_of_not_enabled fun e => e.elim hstate fun hdrained => hpart hdrained.1.2,
    fun hnone htaken => exec_of_not_enabled fun e => e.elim (fun hwhole => hnone hwhole.1.2) fun ht => htaken ht.2,
    fun h => exec_of_not_enabled fun e => h e.2,
    fun h => exec_of_not_enabled fun e => h e.2,
    fun h => exec_of_not_enabled fun e => h e.2,
    fun hchunk hacc => exec_of_not_enabled fun e => e.elim (fun hc => hchunk hc.2) fun ha => hacc ha.2,
    fun h => exec_of_not_enabled ?ccolNotDue,
    fun h => exec_of_not_enabled fun e => e.2 h,
    fun h hpart => exec_of_not_enabled ?cstepDrained,
    -- AWAIT and CEXIT
    fun hdrain hawait => ⟨exec_of_not_enabled fun e => e.1.elim hdrain hawait,
      exec_of_not_enabled fun e => e.elim hawait fun hdrained => hdrain hdrained.1.1.1⟩,
    fun h => exec_of_not_enabled fun e => h e.2,
    -- EXPIRE and JOIN
    fun h => exec_of_not_enabled fun e => h e.1,
    fun hprod hcons => exec_of_not_enabled fun e => e.2.elim (· hprod) (· hcons),
    fun h => exec_of_not_enabled fun e => h.elim (· e.2.1) (· e.2.2),
    fun hstopping haborting => exec_of_not_enabled fun e => e.1.elim hstopping haborting,
    -- the FFT engine
    fun h i hi => exec_of_not_enabled fun e => h (windowed_of_enabled hi e),
    fun h => exec_of_not_enabled h,
    fun hidle hend => exec_of_not_enabled fun e => e.elim hidle hend,
    fun hpass => ⟨exec_of_not_enabled hpass, fun hend => exec_of_not_enabled fun e => e.elim hpass hend⟩,
    fun hready => ⟨fun hend => exec_of_not_enabled fun e => e.elim hready hend,
      fun hadvance => exec_of_not_enabled fun e => e.elim hready hadvance⟩,
    fun h => exec_of_not_enabled h,
    fun h => exec_of_not_enabled h,
    -- the complex unit
    fun h => ⟨exec_of_not_enabled fun e => h.elim (· e.1) e.2.1.not_ge,
      exec_of_not_enabled fun e => h.elim (· e.1) e.2.1.not_ge⟩,
    fun h => exec_of_not_enabled fun e => Bool.false_ne_true (e.2.2.symm.trans h),
    fun h => exec_of_not_enabled fun e => Bool.false_ne_true (h.symm.trans e.2.2),
    fun h i hi => exec_of_not_enabled fun e => h.elim (unitInUse_of_enabled hi e).2.1 (unitInUse_of_enabled hi e).2.2,
    -- S_IDLE
    fun hinv hidle i hi => exec_of_not_enabled fun e =>
      not_someAgentBusy_of_idle hinv hidle (someAgentBusy_of_enabled hi e)⟩
  case pstepDecoded =>
    rintro (⟨⟨-, hnone⟩, -⟩ | ⟨-, hwritten⟩)
    · exact absurd (h.symm.trans hnone) nofun
    · exact absurd (h.symm.trans hwritten) nofun
  case pstepNoFrame =>
    rintro (⟨-, hframe⟩ | ⟨-, hwritten⟩)
    · exact (hasFrame_iff.1 hframe).elim h
    · exact absurd (hpart.symm.trans hwritten) nofun
  case ccolNotDue =>
    rintro ⟨⟨-, hcolumn⟩, hdivided, hbin⟩
    rcases h with hpart | htrue | ⟨hzero, hall⟩
    · exact hpart hcolumn
    · exact Bool.false_ne_true (hdivided.symm.trans htrue)
    · exact hbin.elim hzero hall
  case cstepDrained =>
    rintro (⟨-, hleft⟩ | ⟨-, htaken⟩)
    · exact hleft h
    · exact absurd (hpart.symm.trans htaken) nofun

end Sys2Proof.Machine
end

section
/-! PROOFS. What an operation can do, said once: the parts of a CSTEP under way (R116, R222, R225), and the ways an
operation is taken. Every claim on all operations is proved over these two lists. -/

namespace Sys2Proof.Machine

variable {s t u : State} {i : Instr}

/-! ## The parts of a CSTEP -/

/-- The parts of a CSTEP that follow its RBRD, the composites among them and the ends of composites taken part by
part (R116; log entry 3). -/
inductive CstepPart where
  | count | rbwin | window | fft | fftEnd | bitrev | twid | bfpass | bfpassEnd | bfly | product | sum | difference
  | bflyEnd | advance | acc | cchunk | cchunkEnd | divide | magnitude | carg | ccol

/-- The operation by whose word a part is taken. -/
def CstepPart.instr : CstepPart → Instr
  | .count => .cstep
  | .rbwin => .rbwin
  | .window => .window
  | .fft | .fftEnd => .fft
  | .bitrev => .bitrev
  | .twid => .twid
  | .bfpass | .bfpassEnd => .bfpass
  | .bfly | .bflyEnd => .bfly
  | .product | .advance => .cmul
  | .sum => .cadd
  | .difference => .csub
  | .acc => .acc
  | .cchunk | .cchunkEnd => .cchunk
  | .divide => .cdivs
  | .magnitude => .cabs
  | .carg => .carg
  | .ccol => .ccol

/-- Where a part is due. -/
def CstepPart.due (s : State) : CstepPart → Prop
  | .count => consAt s .taken
  | .rbwin | .cchunk => consAt s .chunk
  | .window => consAt s .gathered
  | .fft | .bitrev => engineAt s .idle
  | .fftEnd => engineAt s .pass ∧ s.hw.chunk < s.fft.l
  | .twid | .bfpass => engineAt s .pass ∧ passLegal s.hw.chunk s.fft.l
  | .bfpassEnd => engineAt s .ready ∧ s.fft.k = s.hw.chunk
  | .bfly | .product => engineAt s .ready ∧ bflyDue s
  | .sum => engineAt s .product
  | .difference => engineAt s .sum
  | .bflyEnd => engineAt s .difference
  | .advance => engineAt s .advance
  | .acc => consAt s .transformed
  | .cchunkEnd => consAt s .accumulated
  | .divide => consAt s .column ∧ s.spectral.bin < s.hw.chunk ∧ s.spectral.divided = false
  | .magnitude => consAt s .column ∧ s.spectral.bin < s.hw.chunk ∧ s.spectral.divided = true
  | .carg => unitInUse s
  | .ccol => consAt s .column ∧ s.spectral.divided = false ∧ (s.spectral.bin = 0 ∨ s.spectral.bin = s.hw.chunk)

/-- What a part does. -/
def CstepPart.effect (s : State) : CstepPart → State
  | .count => opCountSample s
  | .rbwin => (opRbwin s).consTo .gathered
  | .window => (opWindow s).consTo .windowed
  | .fft => opFftDone (opFft s)
  | .fftEnd => opFftDone s
  | .bitrev => opBitrev s
  | .twid => opTwid s
  | .bfpass => opBfpass s
  | .bfpassEnd => opNextPass s
  | .bfly => opBfly s
  | .product => opBflyProduct s
  | .sum => opBflySum s
  | .difference => opBflyDifference s
  | .bflyEnd => s.fftTo .advance
  | .advance => opAdvance s
  | .acc => (opAcc s).consTo .accumulated
  | .cchunk => opChunkDone (opCchunk s)
  | .cchunkEnd => opChunkDone (opCountChunk s)
  | .divide => opColumnDivide s
  | .magnitude => opColumnMagnitude s
  | .carg => s.setCu { s.cu with f := cArg s.cu.a }
  | .ccol => opCcol s

/-! ## The next part of a CSTEP under way -/

/-- Of an FFT under way the next part is one of the list, and it is due. -/
theorem opFftPart_cases (hpart : s.cons.part = .windowed) :
    ∃ p : CstepPart, opFftPart s = p.effect s ∧ (Inv s → p.due s) := by
  have hat (hinv : Inv s) : consAt s .windowed := ⟨(hinv.consPart (by rw [hpart]; nofun)).1, hpart⟩
  unfold opFftPart
  cases hphase : s.fft.phase with
  | idle => exact ⟨.fft, rfl, fun hinv => ⟨hat hinv, hphase⟩⟩
  | pass =>
    by_cases hend : s.hw.chunk < s.fft.l
    · exact ⟨.fftEnd, if_pos hend, fun hinv => ⟨⟨hat hinv, hphase⟩, hend⟩⟩
    · refine ⟨.bfpass, if_neg hend, fun hinv => ⟨⟨hat hinv, hphase⟩, ?_⟩⟩
      obtain ⟨hpow, htwo, -⟩ := hinv.fftPass hphase
      exact ⟨hpow, htwo, not_lt.1 hend⟩
  | ready =>
    by_cases hend : s.fft.k = s.hw.chunk
    · exact ⟨.bfpassEnd, if_pos hend, fun hinv => ⟨⟨hat hinv, hphase⟩, hend⟩⟩
    · exact ⟨.bfly, if_neg hend, fun hinv =>
        ⟨⟨hat hinv, hphase⟩, (hinv.fftReady hphase).2.resolve_left fun hdone => hend hdone.1⟩⟩
  | product => exact ⟨.sum, rfl, fun hinv => ⟨hat hinv, hphase⟩⟩
  | sum => exact ⟨.difference, rfl, fun hinv => ⟨hat hinv, hphase⟩⟩
  | difference => exact ⟨.bflyEnd, rfl, fun hinv => ⟨hat hinv, hphase⟩⟩
  | advance => exact ⟨.advance, rfl, fun hinv => ⟨hat hinv, hphase⟩⟩

/-- Of a CCOL under way the next part is one of the list, and it is due. -/
theorem opColumnPart_cases (hpart : s.cons.part = .column) :
    ∃ p : CstepPart, opColumnPart s = p.effect s ∧ (Inv s → p.due s) := by
  have hat (hinv : Inv s) : consAt s .column := ⟨(hinv.consPart (by rw [hpart]; nofun)).1, hpart⟩
  unfold opColumnPart
  by_cases hdivided : s.spectral.divided = true
  · exact ⟨.magnitude, if_pos hdivided, fun hinv => ⟨hat hinv, hinv.binInside.2 hdivided, hdivided⟩⟩
  · have hfalse : s.spectral.divided = false := Bool.eq_false_iff.2 hdivided
    rw [if_neg hdivided]
    by_cases hbin : s.spectral.bin = 0 ∨ s.spectral.bin = s.hw.chunk
    · exact ⟨.ccol, if_pos hbin, fun hinv => ⟨hat hinv, hfalse, hbin⟩⟩
    · exact ⟨.divide, if_neg hbin, fun hinv =>
        ⟨hat hinv, hinv.binInside.1.lt_of_ne fun hall => hbin (.inr hall), hfalse⟩⟩

/-- The next part of a CSTEP under way is one of the list, and it is due. -/
theorem opNextPart_cases (hpart : s.cons.part ≠ .none) :
    ∃ p : CstepPart, opNextPart s = p.effect s ∧ (Inv s → p.due s) := by
  have hworks (hinv : Inv s) : consWorks s := (hinv.consPart hpart).1
  unfold opNextPart
  cases hat : s.cons.part with
  | none => exact absurd hat hpart
  | taken => exact ⟨.count, rfl, fun hinv => ⟨hworks hinv, hat⟩⟩
  | chunk => exact ⟨.cchunk, rfl, fun hinv => ⟨hworks hinv, hat⟩⟩
  | gathered => exact ⟨.window, rfl, fun hinv => ⟨hworks hinv, hat⟩⟩
  | windowed => exact opFftPart_cases hat
  | transformed => exact ⟨.acc, rfl, fun hinv => ⟨hworks hinv, hat⟩⟩
  | accumulated => exact ⟨.cchunkEnd, rfl, fun hinv => ⟨hworks hinv, hat⟩⟩
  | column => exact opColumnPart_cases hat

/-- What every part keeps, the next parts keep, however many. -/
theorem opNextParts_keeps {R : State → State → Prop} (hrefl : ∀ s, R s s)
    (htrans : ∀ {s t u}, R s t → R t u → R s u) (hpart : ∀ s (p : CstepPart), R s (p.effect s)) (n : Nat) (s : State) :
    R s (opNextParts n s) := by
  induction n generalizing s with
  | zero => exact hrefl s
  | succ n ih =>
    refine htrans ?_ (ih (opNextPart s))
    by_cases hnone : s.cons.part = .none
    · rw [opNextPart_of_none s hnone]
      exact hrefl s
    · obtain ⟨p, hp, -⟩ := opNextPart_cases hnone
      exact hp ▸ hpart s p

/-! ## The ways an operation is taken -/

/-- `OpTaken s i t`: in state `s` operation `i` is a step of the machine and leads to `t`. -/
inductive OpTaken (s : State) : Instr → State → Prop
  | busy (h : s.sup.sstate ≠ .idle) : OpTaken s .start (raise .busy s)
  | configError (h : s.sup.sstate = .idle) (hlegal : configLegal s.regs.pixcols s.regs.layout = false) :
      OpTaken s .start (raise .configError s)
  | openFailure (h : s.sup.sstate = .idle) (hopen : s.src.isOpen = false) : OpTaken s .start (raise .openFailure s)
  | started (h : s.sup.sstate = .idle) (hlegal : configLegal s.regs.pixcols s.regs.layout = true)
      (hopen : s.src.isOpen = true) : OpTaken s .start (opStartAccepted s)
  | stop (h : s.sup.sstate = .run) : OpTaken s .stop
      ((opFinish s).setSup { s.sup with running := false, timerArmed := true, sstate := .stopping })
  | expire (h : s.sup.sstate = .stopping ∧ someAgentLive s) : OpTaken s .expire
      ((raise .expiry s).setSup { s.sup with
        pabort := if s.prod.pstate = .exit then s.sup.pabort else true
        cabort := if s.cons.cstate = .exit then s.sup.cabort else true
        sstate := .aborting })
  | join (h : (s.sup.sstate = .stopping ∨ s.sup.sstate = .aborting) ∧ s.prod.pstate = .exit ∧ s.cons.cstate = .exit) :
      OpTaken s .join (((s.setSup { s.sup with timerArmed := false, sstate := .idle }).setProd
        { s.prod with pstate := .idle }).setCons { s.cons with cstate := .idle })
  | rbwr (h : prodAt s .decoded) : OpTaken s .rbwr ((opRbwr s).prodTo .written)
  | pfetch (h : prodAt s .none ∧ s.prod.fetched = none) : OpTaken s .pfetch (opPfetch s)
  | pdecode (h : prodAt s .none ∧ hasFrame s = true) : OpTaken s .pdecode ((opPdecode s).prodTo .decoded)
  | pstep (h : prodAt s .none ∧ hasFrame s = true) : OpTaken s .pstep (opPstep s)
  | pstepEnd (h : prodAt s .written) : OpTaken s .pstep (opCountFrame s)
  | peos (h : prodAt s .none ∧ s.prod.fetched = some .eos) : OpTaken s .peos (opPeos s)
  | pfail (h : prodAt s .none ∧ s.prod.fetched = some .fail) : OpTaken s .pfail (raise .decodeFailure s)
  | pexit (h : (s.prod.pstate = .run ∨ prodWaits s) ∧ prodCancelled s) : OpTaken s .pexit (opProdCancel s)
  | signalCancel (h : prodWaits s) (hcancel : prodCancelled s) : OpTaken s .signal (opProdCancel s)
  | signalComplete (h : prodWaits s) (hcancel : ¬prodCancelled s) (hdone : s.hand.workerDone = true) :
      OpTaken s .signal (opSignalComplete s)
  | awaitCancel (h : s.cons.cstate = .await) (hcancel : consCancelled s) : OpTaken s .await (opConsCancel s)
  | awaitComplete (h : s.cons.cstate = .await) (hcancel : ¬consCancelled s)
      (hnew : s.hand.position ≠ s.cons.prev) : OpTaken s .await (opAwaitComplete s)
  | awaitEnter (h : consAt s .none ∧ (s.cons.rd : Int) = s.cons.lim) : OpTaken s .await (opAwaitEnter s)
  | cexit (h : (s.cons.cstate = .drain ∨ s.cons.cstate = .await) ∧ consCancelled s) :
      OpTaken s .cexit (opConsCancel s)
  | rbrd (h : consAt s .none ∧ (s.cons.rd : Int) ≠ s.cons.lim) : OpTaken s .rbrd ((opRbrd s).consTo .taken)
  | cstep (h : consAt s .none ∧ (s.cons.rd : Int) ≠ s.cons.lim) : OpTaken s .cstep (opCstep s)
  | part (p : CstepPart) (h : p.due s) : OpTaken s p.instr (p.effect s)

/-- A step of one of two cases is the one or the other, or changes nothing. -/
theorem next_ite_cases {c d : Prop} [Decidable c] [Decidable d] {t u v : State}
    (h : (Host.Outcome.next (if c then t else if d then u else s) : Result) = .next v) :
    v = s ∨ (c ∧ v = t) ∨ (d ∧ v = u) := by
  cases h
  by_cases hc : c
  · exact .inr (.inl ⟨hc, if_pos hc⟩)
  · rw [if_neg hc]
    by_cases hd : d
    · exact .inr (.inr ⟨hd, if_pos hd⟩)
    · exact .inl (if_neg hd)

/-- The tests of R250, in their order. -/
theorem opTaken_of_execStart (h : execStart s = .next t) : OpTaken s .start t := by
  cases h
  by_cases hidle : s.sup.sstate = .idle
  · rw [if_neg (not_not.2 hidle)]
    split
    case isTrue hlegal => exact .configError hidle hlegal
    case isFalse hlegal =>
      split
      case isTrue hopen => exact .openFailure hidle hopen
      case isFalse hopen =>
        exact .started hidle (Bool.eq_true_of_not_eq_false hlegal) (Bool.eq_true_of_not_eq_false hopen)
  · rw [if_pos hidle]
    exact .busy hidle

/-- SIGNAL cancels, completes, or leaves PROD blocked (R184 to R186). -/
theorem opTaken_of_execSignal (h : execSignal s = .next t) : t = s ∨ OpTaken s .signal t := by
  cases h
  split
  case isTrue hwaits =>
    split
    case isTrue hcancel => exact .inr (.signalCancel hwaits hcancel)
    case isFalse hcancel =>
      split
      case isTrue hdone => exact .inr (.signalComplete hwaits hcancel hdone)
      case isFalse => exact .inl rfl
  case isFalse => exact .inl rfl

/-- AWAIT cancels, completes, enters, or leaves CONS blocked (R187 to R189). -/
theorem opTaken_of_execAwait (h : execAwait s = .next t) : t = s ∨ OpTaken s .await t := by
  cases h
  split
  case isTrue hawait =>
    split
    case isTrue hcancel => exact .inr (.awaitCancel hawait hcancel)
    case isFalse hcancel =>
      split
      case isTrue hnew => exact .inr (.awaitComplete hawait hcancel hnew)
      case isFalse => exact .inl rfl
  case isFalse =>
    split
    case isTrue hdrained => exact .inr (.awaitEnter hdrained)
    case isFalse => exact .inl rfl

/-- A conditional step that is taken in a way of the list. -/
theorem opTaken_of_stepIf {c : Prop} [Decidable c] (h : stepIf c u s = .next t) (hc : c → OpTaken s i u) :
    t = s ∨ OpTaken s i t := by
  rcases stepIf_cases _ _ h with ⟨hdue, rfl⟩ | ⟨-, rfl⟩
  · exact .inr (hc hdue)
  · exact .inl rfl

/-- A step that is one of two parts of a CSTEP taken by the same word. -/
theorem opTaken_of_two_parts (p q : CstepPart) (hpq : q.instr = p.instr) {c d : Prop} [Decidable c] [Decidable d]
    (h : (Host.Outcome.next (if c then p.effect s else if d then q.effect s else s) : Result) = .next t)
    (hc : c → p.due s) (hd : d → q.due s) :
    t = s ∨ OpTaken s p.instr t := by
  rcases next_ite_cases h with rfl | ⟨hdue, rfl⟩ | ⟨hdue, rfl⟩
  · exact .inl rfl
  · exact .inr (.part p (hc hdue))
  · exact .inr (hpq ▸ .part q (hd hdue))

/-- An operation changes nothing, or is taken in one of the ways of the list. -/
theorem exec_cases (h : exec i s = .next t) : t = s ∨ OpTaken s i t := by
  cases i with
  | ppoll | cpoll => cases h; exact .inl rfl
  | start => exact .inr (opTaken_of_execStart h)
  | stop => exact opTaken_of_stepIf h .stop
  | expire => exact opTaken_of_stepIf h .expire
  | join => exact opTaken_of_stepIf h .join
  | rbwr => exact opTaken_of_stepIf h .rbwr
  | pfetch => exact opTaken_of_stepIf h .pfetch
  | pdecode => exact opTaken_of_stepIf h .pdecode
  | pstep =>
    rcases next_ite_cases h with ht | ⟨hdue, rfl⟩ | ⟨hdue, rfl⟩
    · exact .inl ht
    · exact .inr (.pstep hdue)
    · exact .inr (.pstepEnd hdue)
  | peos => exact opTaken_of_stepIf h .peos
  | pfail => exact opTaken_of_stepIf h .pfail
  | pexit => exact opTaken_of_stepIf h .pexit
  | signal => exact opTaken_of_execSignal h
  | await => exact opTaken_of_execAwait h
  | cexit => exact opTaken_of_stepIf h .cexit
  | rbrd => exact opTaken_of_stepIf h .rbrd
  | cstep =>
    rcases next_ite_cases h with ht | ⟨hdue, rfl⟩ | ⟨hdue, rfl⟩
    · exact .inl ht
    · exact .inr (.cstep hdue)
    · exact .inr (.part .count hdue)
  | rbwin => exact opTaken_of_stepIf h (.part .rbwin)
  | window => exact opTaken_of_stepIf h (.part .window)
  | fft => exact opTaken_of_two_parts .fft .fftEnd rfl h id id
  | bitrev => exact opTaken_of_stepIf h (.part .bitrev)
  | twid => exact opTaken_of_stepIf h (.part .twid)
  | bfly => exact opTaken_of_two_parts .bfly .bflyEnd rfl h id id
  | bfpass => exact opTaken_of_two_parts .bfpass .bfpassEnd rfl h id id
  | cmul => exact opTaken_of_two_parts .product .advance rfl h id id
  | cadd => exact opTaken_of_stepIf h (.part .sum)
  | csub => exact opTaken_of_stepIf h (.part .difference)
  | cdivs => exact opTaken_of_stepIf h (.part .divide)
  | cabs => exact opTaken_of_stepIf h (.part .magnitude)
  | carg => exact opTaken_of_stepIf h (.part .carg)
  | acc => exact opTaken_of_stepIf h (.part .acc)
  | cchunk => exact opTaken_of_two_parts .cchunk .cchunkEnd rfl h id id
  | ccol => exact opTaken_of_stepIf h (.part .ccol)

end Sys2Proof.Machine
end

section
/-! PROOFS. The parameters' bounds, the lengths of the buffers, and the order of the passes and butterflies of an FFT
(R5, R45 to R48, R162 to R167, R224 to R229). -/

namespace Sys2Proof.Machine

/-! ## Parameters (R5) -/

variable (p : Params)

theorem chunk_eq : p.chunk = 2 ^ p.log2Chunk := rfl

theorem two_le_chunk : 2 ≤ p.chunk := by
  calc 2 = 2 ^ 1 := rfl
    _ ≤ 2 ^ p.log2Chunk := Nat.pow_le_pow_right two_pos (Nat.le_add_left 1 _)

theorem chunk_pos : 0 < p.chunk := two_pos.trans_le (two_le_chunk p)

theorem batch_pos : 0 < p.batch := Nat.mul_pos (chunk_pos p) (Nat.succ_pos _)

theorem ringLen_pos : 0 < p.ringLen := Nat.mul_pos (chunk_pos p) (Nat.succ_pos _)

theorem nextSlot_lt (a : Nat) : nextSlot p a < p.ringLen := Nat.mod_lt _ (ringLen_pos p)

/-! ## Lengths of the buffers -/

theorem length_bitrevStep (m : Nat) (a : List Cplx) (i : Nat) : (bitrevStep m a i).length = a.length := by
  unfold bitrevStep
  split
  · simp [swapAt]
  · rfl

theorem length_bitrevBuf (m : Nat) (a : List Cplx) : (bitrevBuf m a).length = a.length :=
  List.foldlRecOn (motive := fun b : List Cplx => b.length = a.length) _ _ rfl fun b hb _ _ =>
    (length_bitrevStep m b _).trans hb

theorem length_butterfly (a : List Cplx) (i j : Nat) (w : Cplx) : (butterfly a i j w).length = a.length := by
  simp [butterfly]

theorem length_passBlock (half k : Nat) (wl : Cplx) (a : List Cplx) : (passBlock half wl a k).length = a.length :=
  List.foldlRecOn (motive := fun st : Cplx × List Cplx => st.2.length = a.length) _ _ rfl fun st hst _ _ =>
    (length_butterfly st.2 _ _ _).trans hst

theorem length_passBuf (n l : Nat) (a : List Cplx) : (passBuf n l a).length = a.length :=
  List.foldlRecOn (motive := fun b : List Cplx => b.length = a.length) _ _ rfl fun b hb _ _ =>
    (length_passBlock _ _ _ b).trans hb

theorem length_fftBuf (m : Nat) (a : List Cplx) : (fftBuf m a).length = a.length :=
  List.foldlRecOn (motive := fun b : List Cplx => b.length = a.length) _ _ (length_bitrevBuf m a) fun b hb _ _ =>
    (length_passBuf _ _ b).trans hb

theorem length_windowOf (m : Memory) (e : Nat) : (windowOf p m e).length = p.chunk := by simp [windowOf]

theorem length_windowBuf (win : List F64) : (windowBuf p win).length = p.chunk := by simp [windowBuf]

theorem length_accBuf (acc buf : List Cplx) : (accBuf p acc buf).length = p.chunk := by simp [accBuf]

theorem length_columnScratch_v {x : Spectral} (nchunk : Nat) (h : x.v.length = p.chunk) :
    (columnScratch p nchunk x).v.length = p.chunk := by
  show ((magnitudesDue p nchunk x).map (levelOf p)).length = p.chunk
  rw [List.length_map, magnitudesDue]
  split
  · exact h
  · simp [columnMagnitudes]

theorem length_columnScratch_out {x : Spectral} (nchunk : Nat) (h : x.v.length = p.chunk) :
    (columnScratch p nchunk x).out.length = p.chunk :=
  (List.length_map _).trans (length_columnScratch_v p nchunk h)

/-! ## Passes and butterflies -/

variable {n l k j : Nat}

theorem passLegal_two (h : 2 ≤ n) : passLegal n 2 := ⟨by decide, le_rfl, h⟩

theorem log2_double (h : 2 ≤ l) : Nat.log2 (2 * l) = Nat.log2 l + 1 := by
  rw [Nat.log2_eq_iff (by omega)]
  have hlo : 2 ^ Nat.log2 l ≤ l := Nat.log2_self_le (by omega)
  have hhi : l < 2 ^ (Nat.log2 l + 1) := Nat.lt_log2_self
  constructor
  · rw [Nat.pow_succ]; omega
  · rw [Nat.pow_succ]; omega

/-- After a pass of length `l` the pass of twice the length is due, up to twice the buffer (R167). -/
theorem passLegal_double (h : passLegal n l) : passLegal (2 * n) (2 * l) := by
  obtain ⟨hpow, htwo, hle⟩ := h
  refine ⟨?_, by omega, by omega⟩
  rw [log2_double htwo, Nat.pow_succ, ← hpow, Nat.mul_comm]

/-- The length of a pass divides that of the buffer (R166). -/
theorem dvd_chunk_of_passLegal (h : passLegal p.chunk l) : l ∣ p.chunk := by
  obtain ⟨hpow, -, hle⟩ := h
  rw [hpow, chunk_eq] at hle ⊢
  exact Nat.pow_dvd_pow 2 ((Nat.pow_le_pow_iff_right one_lt_two).1 hle)

/-- The first butterfly of a pass (R166). -/
theorem butterflyLegal_first (h : passLegal n l) : butterflyLegal n l 0 0 := by
  obtain ⟨hpow, htwo, hle⟩ := h
  exact ⟨⟨hpow, htwo, hle⟩, Nat.zero_mod l, by omega, by omega⟩

/-- After a block comes the next one, or the pass is done (R166). -/
theorem butterflyLegal_nextBlock (h : butterflyLegal p.chunk l k j) (hdone : k + l ≠ p.chunk) :
    butterflyLegal p.chunk l (k + l) 0 := by
  obtain ⟨hpass, hmod, hle, -⟩ := h
  have hk : l ∣ k + l := Nat.dvd_add (Nat.dvd_of_mod_eq_zero hmod) (dvd_refl l)
  have hroom : l ≤ p.chunk - (k + l) :=
    Nat.le_of_dvd (by omega) (Nat.dvd_sub (dvd_chunk_of_passLegal p hpass) hk)
  refine ⟨hpass, Nat.mod_eq_zero_of_dvd hk, by omega, ?_⟩
  have := hpass.2.1
  omega

end Sys2Proof.Machine
end

section
/-! PROOFS. The structural invariant: what each shared operation does to it. An operation's lemma names the clauses
that speak of what it writes; the others are those of the state before. -/

namespace Sys2Proof.Machine

variable {s t : State}

/-! ## What the invariant says of an agent at work -/

theorem Inv.sup_of_prod (h : Inv s) (hlive : s.prod.pstate ≠ .idle) : s.sup.sstate ≠ .idle := mt h.prodIdle.2 hlive

theorem Inv.sup_of_cons (h : Inv s) (hlive : s.cons.cstate ≠ .idle) : s.sup.sstate ≠ .idle := mt h.consIdle.2 hlive

/-- PROD is in its loop or in a wait. -/
def PState.AtWork (p : PState) : Prop := p ≠ .idle ∧ p ≠ .exit

/-- CONS is draining or waiting. -/
def CState.AtWork (c : CState) : Prop := c ≠ .idle ∧ c ≠ .exit

/-- PROD has no exit code before its exit (R38). -/
theorem Inv.pexit_none (h : Inv s) (hwork : s.prod.pstate.AtWork) : s.prod.pexit = .none :=
  by_contra fun hcode => hwork.2 (h.prodLive (h.sup_of_prod hwork.1) hcode)

/-- CONS has no exit code before its exit (R38). -/
theorem Inv.cexit_none (h : Inv s) (hwork : s.cons.cstate.AtWork) : s.cons.cexit = .none :=
  by_contra fun hcode => hwork.2 (h.consLive (h.sup_of_cons hwork.1) hcode)

theorem prodAtWork_of_run (h : s.prod.pstate = .run) : s.prod.pstate.AtWork := by rw [h]; exact ⟨nofun, nofun⟩

theorem prodAtWork_of_waits (h : prodWaits s) : s.prod.pstate.AtWork := by
  rcases h with h | h | h <;> rw [h] <;> exact ⟨nofun, nofun⟩

theorem not_prodWorks_of_waits (h : prodWaits s) : ¬prodWorks s := by
  rintro ⟨hrun, -⟩
  rcases h with h | h | h <;> exact absurd (h.symm.trans hrun) nofun

theorem consAtWork_of_states (h : s.cons.cstate = .await ∨ s.cons.cstate = .drain) : s.cons.cstate.AtWork := by
  rcases h with h | h <;> rw [h] <;> exact ⟨nofun, nofun⟩

theorem Inv.prodPart_none (h : Inv s) (hworks : ¬prodWorks s) : s.prod.part = .none :=
  by_contra fun hpart => hworks (h.prodPart hpart).1

theorem Inv.consPart_none (h : Inv s) (hworks : ¬consWorks s) : s.cons.part = .none :=
  by_contra fun hpart => hworks (h.consPart hpart).1

theorem Inv.prodPart_none_of_cancelled (h : Inv s) (hcancel : prodCancelled s) : s.prod.part = .none :=
  h.prodPart_none fun hworks => hcancel.elim (by rw [hworks.2.2]; nofun) (by rw [hworks.2.1]; nofun)

theorem Inv.consPart_none_of_cancelled (h : Inv s) (hcancel : consCancelled s) : s.cons.part = .none :=
  h.consPart_none fun hworks => hcancel.elim (by rw [hworks.2.2]; nofun) (by rw [hworks.2.1]; nofun)

/-- No FFT is under way but at the FFT of a CCHUNK (R225). -/
theorem Inv.phase_idle (h : Inv s) (hpart : s.cons.part ≠ .windowed) : s.fft.phase = .idle :=
  by_contra fun hphase => hpart (h.fftOutside hphase)

/-! ## Producer -/

theorem Inv.opRbwr (h : Inv s) : Inv (opRbwr s) :=
  { h with
    ringWf := Memory.write_wf _ _ h.ringWf
    ringBelow := Memory.write_below _ h.wrLt h.ringBelow
    wrLt := nextSlot_lt s.hw s.prod.wr }

theorem Inv.opPdecode (h : Inv s) : Inv (opPdecode s) := by
  unfold Machine.opPdecode
  split
  · exact { h with }
  · exact h

/-- A PSTEP under way goes on. -/
theorem Inv.prodTo (h : Inv s) (hworks : prodWorks s) (hframe : hasFrame s = true) (p : ProdPart) :
    Inv (s.prodTo p) :=
  { h with prodPart := fun _ => ⟨hworks, hframe⟩ }

theorem Inv.opPfetch (h : Inv s) (hnone : s.prod.part = .none) : Inv (opPfetch s) := by
  obtain heq | ⟨a, src, -, heq⟩ := opPfetch_cases s
  · rw [heq]; exact h
  · rw [heq]; exact { h with prodPart := fun hpart => absurd hnone hpart }

/-- PROD's counters and the position it asks to publish are in their ranges (R21). -/
structure Producer.InRange (p : Params) (x : Producer) : Prop where
  wrLt : x.wr < p.ringLen
  runLt : x.run < p.batch
  ppendRange : -1 ≤ x.ppend ∧ x.ppend < p.ringLen

/-- PROD goes on, in the loop or in a wait, with no step under way. -/
theorem Inv.prodGoesOn (h : Inv s) {x : Producer} {y : Handoff} (hwork : s.prod.pstate.AtWork)
    (hwork' : x.pstate.AtWork) (hcode : x.pexit = s.prod.pexit) (hpart : x.part = .none) (hrange : x.InRange s.hw)
    (hposition : -1 ≤ y.position ∧ y.position < s.hw.ringLen) : Inv { s with prod := x, hand := y } :=
  { h with
    wrLt := hrange.wrLt
    runLt := hrange.runLt
    ppendRange := hrange.ppendRange
    positionRange := hposition
    prodIdle := iff_of_false hwork'.1 (h.sup_of_prod hwork.1)
    prodExit := fun hx => absurd hx hwork'.2
    prodLive := fun _ hx => absurd (hcode.trans (h.pexit_none hwork)) hx
    prodPart := fun hx => absurd hpart hx }

/-- PROD exits with a code, from its loop or a wait. -/
theorem Inv.prodExits (h : Inv s) {x : Producer} {y : Handoff} (hwork : s.prod.pstate.AtWork)
    (hexit : x.pstate = .exit) (hcode : x.pexit ≠ .none) (hpart : x.part = .none) (hrange : x.InRange s.hw)
    (hposition : -1 ≤ y.position ∧ y.position < s.hw.ringLen) : Inv { s with prod := x, hand := y } :=
  { h with
    wrLt := hrange.wrLt
    runLt := hrange.runLt
    ppendRange := hrange.ppendRange
    positionRange := hposition
    prodIdle := iff_of_false (by rw [hexit]; nofun) (h.sup_of_prod hwork.1)
    prodExit := fun _ => hcode
    prodLive := fun _ _ => hexit
    prodPart := fun hx => absurd hpart hx }

/-- PROD may ask to publish its cursor (R205, R206). -/
theorem Inv.wrRange (h : Inv s) : -1 ≤ (s.prod.wr : Int) ∧ (s.prod.wr : Int) < s.hw.ringLen := by
  have := h.wrLt
  omega

/-- PROD may ask to publish the sentinel (R206). -/
theorem sentinelRange (p : Params) : (-1 : Int) ≤ -1 ∧ (-1 : Int) < p.ringLen := by omega

theorem Inv.opCountFrame (h : Inv s) (hrun : s.prod.pstate = .run) : Inv (opCountFrame s) := by
  have hwork := prodAtWork_of_run hrun
  unfold Machine.opCountFrame
  split
  case isTrue =>
    exact h.prodGoesOn hwork ⟨nofun, nofun⟩ rfl rfl ⟨h.wrLt, batch_pos s.hw, h.wrRange⟩ h.positionRange
  case isFalse hbatch =>
    have hlt : s.prod.run + 1 < s.hw.batch := lt_of_le_of_ne h.runLt hbatch
    exact h.prodGoesOn hwork hwork rfl rfl ⟨h.wrLt, hlt, h.ppendRange⟩ h.positionRange

theorem Inv.opPeos (h : Inv s) (hrun : s.prod.pstate = .run) (hpart : s.prod.part = .none) : Inv (opPeos s) := by
  have hwork := prodAtWork_of_run hrun
  unfold Machine.opPeos
  split
  · exact h.prodGoesOn hwork ⟨nofun, nofun⟩ rfl hpart ⟨h.wrLt, batch_pos s.hw, h.wrRange⟩ h.positionRange
  · exact h.prodGoesOn hwork ⟨nofun, nofun⟩ rfl hpart ⟨h.wrLt, h.runLt, sentinelRange s.hw⟩ h.positionRange

theorem Inv.opProdCancel (h : Inv s) (hwork : s.prod.pstate.AtWork) (hcancel : prodCancelled s) :
    Inv (opProdCancel s) := by
  have hcode : (if s.sup.pabort = true then PExit.aborted else .stopped) ≠ .none := by split <;> nofun
  rw [opProdCancel_eq]
  exact h.prodExits hwork rfl hcode (h.prodPart_none_of_cancelled hcancel) ⟨h.wrLt, h.runLt, h.ppendRange⟩
    h.positionRange

theorem Inv.opSignalComplete (h : Inv s) (hwaits : prodWaits s) : Inv (opSignalComplete s) := by
  have hwork := prodAtWork_of_waits hwaits
  have hpart := h.prodPart_none (not_prodWorks_of_waits hwaits)
  obtain ⟨pp, px, ps, heq, ⟨-, rfl, rfl, rfl⟩ | ⟨-, rfl, rfl, rfl⟩ | ⟨-, rfl, rfl, rfl⟩⟩ := opSignalComplete_cases s hwaits
  all_goals rw [heq]
  · exact h.prodGoesOn hwork ⟨nofun, nofun⟩ rfl hpart ⟨h.wrLt, h.runLt, h.ppendRange⟩ h.ppendRange
  · exact h.prodGoesOn hwork ⟨nofun, nofun⟩ rfl hpart ⟨h.wrLt, h.runLt, sentinelRange s.hw⟩ h.ppendRange
  · exact h.prodExits hwork rfl nofun hpart ⟨h.wrLt, h.runLt, h.ppendRange⟩ h.ppendRange

/-! ## Consumer: the handoff -/

/-- CONS exits with a code, with no step under way. -/
theorem Inv.consExits (h : Inv s) (hlive : s.cons.cstate ≠ .idle) (hpart : s.cons.part = .none) {x : CExit}
    (hcode : x ≠ .none) : Inv { s with cons := { s.cons with cexit := x, cstate := .exit } } :=
  { h with
    ncolLt := fun hx => hx.elim nofun nofun
    consIdle := iff_of_false nofun (h.sup_of_cons hlive)
    consExit := fun _ => hcode
    consLive := fun _ _ => rfl
    consPart := fun hx => absurd hpart hx }

theorem Inv.opConsCancel (h : Inv s) (hlive : s.cons.cstate ≠ .idle) (hcancel : consCancelled s) :
    Inv (opConsCancel s) := by
  rw [opConsCancel_eq]
  exact h.consExits hlive (h.consPart_none_of_cancelled hcancel) (by split <;> nofun)

/-- CONS goes from draining to waiting or back, with no step under way. -/
theorem Inv.consWaits (h : Inv s) (hat : s.cons.cstate = .await ∨ s.cons.cstate = .drain) (hpart : s.cons.part = .none)
    {lim prev : Int} {c : CState} (w : Bool) (hc : c = .await ∨ c = .drain) (hlim : 0 ≤ lim ∧ lim < s.hw.ringLen)
    (hprev : 0 ≤ prev ∧ prev < s.hw.ringLen) :
    Inv { s with hand := { s.hand with workerDone := w }
                 cons := { s.cons with lim := lim, prev := prev, cstate := c } } := by
  have hwork := consAtWork_of_states hat
  exact
    { h with
      limRange := hlim
      prevRange := hprev
      ncolLt := fun _ => h.ncolLt hat
      consIdle := iff_of_false (by rcases hc with h | h <;> rw [h] <;> nofun) (h.sup_of_cons hwork.1)
      consExit := fun hx => absurd hx (by rcases hc with h | h <;> rw [h] <;> nofun)
      consLive := fun _ hx => absurd (h.cexit_none hwork) hx
      consPart := fun hx => absurd hpart hx }

theorem Inv.opAwaitEnter (h : Inv s) (hat : consAt s .none) : Inv (opAwaitEnter s) :=
  h.consWaits (.inr hat.1.1) hat.2 true (.inl rfl) h.limRange h.limRange

theorem Inv.opAwaitComplete (h : Inv s) (hat : s.cons.cstate = .await) : Inv (opAwaitComplete s) := by
  have hpart : s.cons.part = .none := h.consPart_none fun hworks => absurd (hat.symm.trans hworks.1) nofun
  unfold Machine.opAwaitComplete
  split
  case isTrue => exact h.consExits (by rw [hat]; nofun) hpart nofun
  case isFalse hnew =>
    have hposition := h.positionRange
    exact h.consWaits (.inl hat) hpart s.hand.workerDone (.inr rfl) ⟨by omega, hposition.2⟩ h.prevRange

theorem Inv.rbrd (h : Inv s) (hat : consAt s .none) : Inv ((opRbrd s).consTo .taken) := by
  obtain ⟨hworks, hnone⟩ := hat
  exact
    { h with
      rdLt := nextSlot_lt s.hw s.cons.rd
      idxLt := h.rdLt
      cntLt := fun hspc _ => h.cntLt hspc (.inl hnone)
      consPart := fun _ => ⟨hworks, rfl⟩
      chunkDue := nofun
      columnDue := nofun
      binOutside := fun _ => h.binOutside (by rw [hnone]; nofun)
      fftOutside := fun hphase => absurd (h.fftOutside hphase) (by rw [hnone]; nofun) }

/-! ## Consumer: the parts of a chunk -/

theorem Inv.opRbwin (h : Inv s) : Inv (opRbwin s) := { h with winLen := length_windowOf _ _ _ }

theorem Inv.fftIdle (h : Inv s) : Inv (s.fftTo .idle) :=
  { h with fftOutside := fun hphase => absurd rfl hphase, fftPass := nofun, fftReady := nofun, fftInside := nofun }

/-- A buffer of the right length may stand in `buf`. -/
theorem Inv.setBuf (h : Inv s) {b : List Cplx} (hb : b.length = s.hw.chunk) :
    Inv (s.setSpectral { s.spectral with buf := b }) := { h with bufLen := hb }

theorem Inv.opWindow (h : Inv s) : Inv (opWindow s) := (h.setBuf (length_windowBuf _ _)).fftIdle

theorem Inv.opFft (h : Inv s) : Inv (opFft s) := h.setBuf ((length_fftBuf _ _).trans h.bufLen)

theorem Inv.opAcc (h : Inv s) : Inv (opAcc s) := { h with accLen := length_accBuf _ _ _ }

/-- The parts that a CCHUNK under way has come to. -/
def chunkParts : List ConsPart := [.chunk, .gathered, .windowed, .transformed, .accumulated]

/-- What holds at every part of a CCHUNK (R225). -/
theorem Inv.atChunk (h : Inv s) (hpart : s.cons.part ∈ chunkParts) :
    consWorks s ∧ (s.spectral.idx + 1) % s.hw.ringLen = s.cons.rd ∧ s.spectral.bin = 0 ∧ s.spectral.divided = false := by
  have hnone : s.cons.part ≠ .none := by rintro heq; rw [heq] at hpart; exact absurd hpart (by decide)
  have hcolumn : s.cons.part ≠ .column := by rintro heq; rw [heq] at hpart; exact absurd hpart (by decide)
  obtain ⟨hworks, hidx⟩ := h.consPart hnone
  exact ⟨hworks, hidx, h.binOutside hcolumn⟩

/-- A CCHUNK under way goes on, where no FFT is. -/
theorem Inv.chunkGoesOn (h : Inv s) (hpart : s.cons.part ∈ chunkParts) (hphase : s.fft.phase = .idle) {q : ConsPart}
    (hq : q ∈ chunkParts) : Inv (s.consTo q) := by
  obtain ⟨hworks, hidx, hbin⟩ := h.atChunk hpart
  exact
    { h with
      cntLt := fun _ hx => by rcases hx with rfl | rfl <;> exact absurd hq (by decide)
      consPart := fun _ => ⟨hworks, hidx⟩
      chunkDue := fun _ => h.chunkDue hpart
      columnDue := by rintro rfl; exact absurd hq (by decide)
      binOutside := fun _ => hbin
      fftOutside := fun hx => absurd hphase hx }

/-- The end of a CCHUNK: the chunk is counted, and the column is due at its boundary (R222, R225). -/
theorem Inv.chunkCounted (h : Inv s) (hpart : s.cons.part ∈ chunkParts) (hphase : s.fft.phase = .idle) :
    Inv (opChunkDone (opCountChunk s)) := by
  obtain ⟨hworks, hidx, hbin⟩ := h.atChunk hpart
  obtain ⟨hcnt, -⟩ := h.chunkDue hpart
  rw [opChunkDone_eq]
  show Inv { s with cons := { s.cons with
    nchunk := s.cons.nchunk + 1, part := if s.cons.cnt = s.sup.spc then .column else .none } }
  split
  case isTrue hspc =>
    exact
      { h with
        cntLt := fun _ hx => hx.elim nofun nofun
        consPart := fun _ => ⟨hworks, hidx⟩
        chunkDue := nofun
        columnDue := fun _ => ⟨hcnt, hspc, Nat.le_add_left 1 _⟩
        binOutside := fun _ => hbin
        fftOutside := fun hx => absurd hphase hx }
  case isFalse hspc =>
    exact
      { h with
        cntLt := fun hone _ => (h.cntLe hone).lt_of_ne hspc
        consPart := fun hx => absurd rfl hx
        chunkDue := nofun
        columnDue := nofun
        binOutside := fun _ => hbin
        fftOutside := fun hx => absurd hphase hx }

/-- A CCHUNK taken whole. -/
theorem Inv.cchunk (h : Inv s) (hpart : s.cons.part = .chunk) : Inv (opChunkDone (opCchunk s)) :=
  h.opRbwin.opWindow.opFft.opAcc.chunkCounted
    (by show s.cons.part ∈ chunkParts; rw [hpart]; decide) rfl

/-! ## Consumer: the counter and the column -/

theorem Inv.opCountSample (h : Inv s) (hat : consAt s .taken) : Inv (opCountSample s) := by
  obtain ⟨hworks, htaken⟩ := hat
  have hlt (hspc : 1 ≤ s.sup.spc) : s.cons.cnt < s.sup.spc := h.cntLt hspc (.inr htaken)
  have hidx := (h.consPart (by rw [htaken]; nofun)).2
  have hbin := h.binOutside (by rw [htaken]; nofun)
  have hphase := h.phase_idle (by rw [htaken]; nofun)
  rw [opCountSample_eq]
  rcases dueAfterSample_cases s.hw s.sup.spc s.cons.nchunk (s.cons.cnt + 1) with
    ⟨hdue, heq⟩ | ⟨-, hspc, hnchunk, heq⟩ | ⟨-, hspc, heq⟩
  all_goals rw [heq]
  · exact
      { h with
        cntLt := fun _ hx => hx.elim nofun nofun
        cntLe := fun hone => hlt hone
        consPart := fun _ => ⟨hworks, hidx⟩
        chunkDue := fun _ => ⟨Nat.le_add_left 1 _, hdue⟩
        columnDue := nofun
        binOutside := fun _ => hbin
        fftOutside := fun hx => absurd hphase hx }
  · exact
      { h with
        cntLt := fun _ hx => hx.elim nofun nofun
        cntLe := fun _ => hspc.le
        consPart := fun _ => ⟨hworks, hidx⟩
        chunkDue := nofun
        columnDue := fun _ => ⟨Nat.le_add_left 1 _, hspc, Nat.one_le_iff_ne_zero.2 hnchunk⟩
        binOutside := fun _ => hbin
        fftOutside := fun hx => absurd hphase hx }
  · exact
      { h with
        cntLt := fun hone _ => (Nat.succ_le_of_lt (hlt hone)).lt_of_ne hspc
        cntLe := fun hone => hlt hone
        consPart := fun hx => absurd rfl hx
        chunkDue := nofun
        columnDue := nofun
        binOutside := fun _ => hbin
        fftOutside := fun hx => absurd hphase hx }

/-- A CDIVS of a CCOL under way, and then its CABS (R228). -/
theorem Inv.opColumnDivide (h : Inv s) (hpart : s.cons.part = .column) (hbin : s.spectral.bin < s.hw.chunk) :
    Inv (opColumnDivide s) :=
  { h with
    binOutside := fun hx => absurd hpart hx
    binInside := ⟨hbin.le, fun _ => hbin⟩ }

theorem Inv.opColumnMagnitude (h : Inv s) (hpart : s.cons.part = .column) (hbin : s.spectral.bin < s.hw.chunk) :
    Inv (opColumnMagnitude s) :=
  { h with
    vLen := List.length_set.trans h.vLen
    binOutside := fun hx => absurd hpart hx
    binInside := ⟨hbin, nofun⟩ }

theorem Inv.opColumn (h : Inv s) : Inv (opColumn s) := by
  rw [opColumn_eq]
  exact
    { h with
      vLen := length_columnScratch_v s.hw s.cons.nchunk h.vLen
      outLen := length_columnScratch_out s.hw s.cons.nchunk h.vLen
      binOutside := fun _ => ⟨rfl, rfl⟩
      binInside := ⟨Nat.zero_le _, nofun⟩ }

/-- The emission of a column and the end of its CSTEP: CONS is draining, so PIXCOLS is not reached before, and
exits where it is after (R227, R230). -/
theorem Inv.emitColumn (h : Inv s) (hat : consAt s .column) (hbin : s.spectral.bin = 0 ∧ s.spectral.divided = false) :
    Inv (opCloseColumn (opEmit s)) := by
  obtain ⟨hworks, hcolumn⟩ := hat
  have hlt : s.cons.ncol < s.cfg.pixcols.toNat := h.ncolLt (.inr hworks.1)
  have hidle : s.cons.cstate ≠ .idle := by rw [hworks.1]; nofun
  have hlog : ∀ c ∈ s.cols ++ [s.spectral.out], c.length = s.hw.chunk := by
    intro c hc
    rcases List.mem_append.1 hc with hold | hnew
    · exact h.colsLen c hold
    · rw [List.mem_singleton.1 hnew]; exact h.outLen
  have hncol : s.cons.ncol + 1 = (s.cols ++ [s.spectral.out]).length := by simp [h.ncolEq]
  have hphase := h.phase_idle (by rw [hcolumn]; nofun)
  rw [opEmit_eq, if_pos hlt, opCloseColumn_eq]
  show Inv { s with
    spectral := { s.spectral with acc := List.replicate s.hw.chunk cZero }
    cols := s.cols ++ [s.spectral.out]
    cons := if s.cons.ncol + 1 = s.cfg.pixcols.toNat then
        { s.cons with ncol := s.cons.ncol + 1, cnt := 0, nchunk := 0, part := .none, cexit := .complete, cstate := .exit }
      else { s.cons with ncol := s.cons.ncol + 1, cnt := 0, nchunk := 0, part := .none }
    lines := { s.lines with evColumn := s.lines.evColumn + 1 } }
  split
  case isTrue hlast =>
    exact
      { h with
        cntLt := fun hone _ => hone
        cntLe := fun _ => Nat.zero_le _
        accLen := List.length_replicate
        colsLen := hlog
        ncolEq := hncol
        ncolLe := hlt
        ncolLt := fun hx => hx.elim nofun nofun
        consIdle := iff_of_false nofun (h.sup_of_cons hidle)
        consExit := nofun
        consLive := fun _ _ => rfl
        consPart := fun hx => absurd rfl hx
        chunkDue := nofun
        columnDue := nofun
        binOutside := fun _ => hbin
        fftOutside := fun hx => absurd hphase hx }
  case isFalse hmore =>
    exact
      { h with
        cntLt := fun hone _ => hone
        cntLe := fun _ => Nat.zero_le _
        accLen := List.length_replicate
        colsLen := hlog
        ncolEq := hncol
        ncolLe := hlt
        ncolLt := fun _ => (Nat.succ_le_of_lt hlt).lt_of_ne hmore
        consPart := fun hx => absurd rfl hx
        chunkDue := nofun
        columnDue := nofun
        binOutside := fun _ => hbin
        fftOutside := fun hx => absurd hphase hx }

theorem Inv.opCcol (h : Inv s) (hat : consAt s .column) : Inv (opCcol s) := by
  have hcolumn := h.opColumn
  unfold Machine.opCcol
  rw [opColumn_eq] at hcolumn ⊢
  exact hcolumn.emitColumn hat ⟨rfl, rfl⟩

/-! ## The FFT engine -/

/-- The temporaries of the FFT engine are in step with the phase of a transform under way (R166, R167). -/
structure FftTemps.InStep (n : Nat) (x : FftTemps) : Prop where
  pass : x.phase = .pass → passLegal (2 * n) x.l
  ready : x.phase = .ready → passLegal n x.l ∧ ((x.k = n ∧ x.j = 0) ∨ butterflyLegal n x.l x.k x.j)
  inside : x.phase ∈ [.product, .sum, .difference, .advance] → butterflyLegal n x.l x.k x.j

/-- A part of an FFT: `buf` keeps its length and the temporaries are in step. -/
theorem Inv.fftGoesOn (h : Inv s) (hpart : s.cons.part = .windowed) {b : List Cplx} (x : FftTemps) (c : ComplexUnit)
    (hb : b.length = s.spectral.buf.length) (hx : x.InStep s.hw.chunk) :
    Inv { s with spectral := { s.spectral with buf := b }, fft := x, cu := c } :=
  { h with
    bufLen := hb.trans h.bufLen
    fftOutside := fun _ => hpart
    fftPass := hx.pass
    fftReady := hx.ready
    fftInside := hx.inside }

theorem Inv.opBitrev (h : Inv s) (hpart : s.cons.part = .windowed) : Inv (opBitrev s) :=
  h.fftGoesOn hpart _ s.cu (length_bitrevBuf _ _)
    ⟨fun _ => passLegal_two (by have := two_le_chunk s.hw; omega), nofun, nofun⟩

theorem Inv.opTwid (h : Inv s) (hpart : s.cons.part = .windowed) (hl : passLegal s.hw.chunk s.fft.l) :
    Inv (opTwid s) :=
  h.fftGoesOn hpart _ s.cu rfl ⟨nofun, fun _ => ⟨hl, .inr (butterflyLegal_first hl)⟩, nofun⟩

theorem Inv.opNextPass (h : Inv s) (hpart : s.cons.part = .windowed) (hl : passLegal s.hw.chunk s.fft.l) :
    Inv (opNextPass s) :=
  h.fftGoesOn hpart _ s.cu rfl ⟨fun _ => passLegal_double hl, nofun, nofun⟩

theorem Inv.opBfpass (h : Inv s) (hpart : s.cons.part = .windowed) (hl : passLegal s.hw.chunk s.fft.l) :
    Inv (opBfpass s) :=
  (h.setBuf ((length_passBuf _ _ _).trans h.bufLen)).opNextPass hpart hl

/-- A part of a butterfly. -/
theorem Inv.insideButterfly (h : Inv s) (hpart : s.cons.part = .windowed) (hdue : bflyDue s) {b : List Cplx}
    {x : FftPhase} (c : ComplexUnit) (hb : b.length = s.spectral.buf.length)
    (hx : x ∈ [FftPhase.product, .sum, .difference, .advance]) :
    Inv { s with spectral := { s.spectral with buf := b }, fft := { s.fft with phase := x }, cu := c } :=
  h.fftGoesOn hpart _ c hb
    ⟨by rintro rfl; exact absurd hx (by decide), by rintro rfl; exact absurd hx (by decide), fun _ => hdue⟩

/-- The next butterfly of the block, or of the next block, or the end of the pass (R166). -/
theorem Inv.opAdvance (h : Inv s) (hpart : s.cons.part = .windowed) (hdue : bflyDue s) : Inv (opAdvance s) := by
  obtain ⟨hl, hk, hroom, hj⟩ := hdue
  rw [opAdvance_eq]
  refine h.fftGoesOn hpart _ _ rfl ?_
  split
  case isTrue hnext => exact ⟨nofun, fun _ => ⟨hl, .inr ⟨hl, hk, hroom, hnext⟩⟩, nofun⟩
  case isFalse =>
    refine ⟨nofun, fun _ => ⟨hl, ?_⟩, nofun⟩
    by_cases hdone : s.fft.k + s.fft.l = s.hw.chunk
    · exact .inl ⟨hdone, rfl⟩
    · exact .inr (butterflyLegal_nextBlock s.hw ⟨hl, hk, hroom, hj⟩ hdone)

/-- The end of an FFT: ACC is due. -/
theorem Inv.opFftDone (h : Inv s) (hpart : s.cons.part = .windowed) : Inv (opFftDone s) :=
  h.fftIdle.chunkGoesOn (by show s.cons.part ∈ chunkParts; rw [hpart]; decide) rfl (by decide)

/-! ## Every part of a CSTEP -/

/-- A part of a CSTEP, taken where it is due, keeps the invariant. -/
theorem Inv.part (h : Inv s) (p : CstepPart) (hdue : p.due s) : Inv (p.effect s) := by
  have inChunk {q : ConsPart} (hat : consAt s q) (hq : q ∈ chunkParts) : s.cons.part ∈ chunkParts := hat.2 ▸ hq
  have idleAt {q : ConsPart} (hat : consAt s q) (hq : q ≠ .windowed) : s.fft.phase = .idle :=
    h.phase_idle (hat.2 ▸ hq)
  have inside {x : FftPhase} (hat : engineAt s x) (hx : x ∈ [FftPhase.product, .sum, .difference, .advance]) :
      bflyDue s := h.fftInside (hat.2 ▸ hx)
  cases p with
  | count => exact h.opCountSample hdue
  | rbwin => exact h.opRbwin.chunkGoesOn (inChunk hdue (by decide)) (idleAt hdue nofun) (by decide)
  | window => exact h.opWindow.chunkGoesOn (inChunk hdue (by decide)) rfl (by decide)
  | fft => exact h.opFft.opFftDone hdue.1.2
  | fftEnd => exact h.opFftDone hdue.1.1.2
  | bitrev => exact h.opBitrev hdue.1.2
  | twid => exact h.opTwid hdue.1.1.2 hdue.2
  | bfpass => exact h.opBfpass hdue.1.1.2 hdue.2
  | bfpassEnd => exact h.opNextPass hdue.1.1.2 (h.fftReady hdue.1.2).1
  | bfly => exact h.insideButterfly hdue.1.1.2 hdue.2 s.cu (length_butterfly _ _ _ _) (by decide)
  | product => exact h.insideButterfly hdue.1.1.2 hdue.2 _ rfl (by decide)
  | sum => exact h.insideButterfly hdue.1.2 (inside hdue (by decide)) _ List.length_set (by decide)
  | difference => exact h.insideButterfly hdue.1.2 (inside hdue (by decide)) _ List.length_set (by decide)
  | bflyEnd => exact h.insideButterfly hdue.1.2 (inside hdue (by decide)) s.cu rfl (by decide)
  | advance => exact h.opAdvance hdue.1.2 (inside hdue (by decide))
  | acc => exact h.opAcc.chunkGoesOn (inChunk hdue (by decide)) (idleAt hdue nofun) (by decide)
  | cchunk => exact h.cchunk hdue.2
  | cchunkEnd => exact h.chunkCounted (inChunk hdue (by decide)) (idleAt hdue nofun)
  | divide => exact h.opColumnDivide hdue.1.2 hdue.2.1
  | magnitude => exact h.opColumnMagnitude hdue.1.2 hdue.2.1
  | carg => exact { h with }
  | ccol => exact h.opCcol hdue.1

theorem Inv.opNextPart (h : Inv s) : Inv (opNextPart s) := by
  by_cases hnone : s.cons.part = .none
  · rw [opNextPart_of_none s hnone]; exact h
  · obtain ⟨p, heq, hdue⟩ := opNextPart_cases hnone
    rw [heq]
    exact h.part p (hdue h)

theorem Inv.opNextParts (h : Inv s) (n : Nat) : Inv (opNextParts n s) := by
  induction n generalizing s with
  | zero => exact h
  | succ n ih => exact ih h.opNextPart

end Sys2Proof.Machine
end

section
/-! PROOFS. What a step of CONS leaves alone, and the end of a step under way: the parts that are left of a CSTEP grow
fewer with each one taken, so a STOP finds it finished (R282 f, R329; log entry 3). -/

namespace Sys2Proof.Machine

variable {s t u : State}

/-! ## What the parts of a CSTEP leave alone -/

/-- From `s` to `t` at most CONS's registers, its data path and units, the columns, FLAGS and the event lines change
(R290). -/
structure ConsOnly (s t : State) : Prop where
  hw : t.hw = s.hw
  regs : t.regs = s.regs
  cfg : t.cfg = s.cfg
  sup : t.sup = s.sup
  hand : t.hand = s.hand
  prod : t.prod = s.prod
  ring : t.ring = s.ring
  port : t.port = s.port
  src : t.src = s.src
  inputs : t.inputs = s.inputs
  tick : t.tick = s.tick

theorem ConsOnly.refl (s : State) : ConsOnly s s := by constructor <;> rfl

theorem ConsOnly.trans (h : ConsOnly s t) (h' : ConsOnly t u) : ConsOnly s u where
  hw := h'.hw.trans h.hw
  regs := h'.regs.trans h.regs
  cfg := h'.cfg.trans h.cfg
  sup := h'.sup.trans h.sup
  hand := h'.hand.trans h.hand
  prod := h'.prod.trans h.prod
  ring := h'.ring.trans h.ring
  port := h'.port.trans h.port
  src := h'.src.trans h.src
  inputs := h'.inputs.trans h.inputs
  tick := h'.tick.trans h.tick

theorem consOnly_opColumn (s : State) : ConsOnly s (opColumn s) := by rw [opColumn_eq]; constructor <;> rfl

theorem consOnly_opEmit (s : State) : ConsOnly s (opEmit s) := by
  rw [opEmit_eq]
  split <;> constructor <;> rfl

theorem consOnly_opCloseColumn (s : State) : ConsOnly s (opCloseColumn s) := by
  rw [opCloseColumn_eq]; constructor <;> rfl

theorem consOnly_opCcol (s : State) : ConsOnly s (opCcol s) :=
  (consOnly_opColumn s).trans ((consOnly_opEmit _).trans (consOnly_opCloseColumn _))

theorem consOnly_part (s : State) (p : CstepPart) : ConsOnly s (p.effect s) := by
  cases p with
  | ccol => exact consOnly_opCcol s
  | cchunk => show ConsOnly s (opChunkDone (opCchunk s)); rw [opCchunk_eq]; constructor <;> rfl
  | advance => show ConsOnly s (opAdvance s); rw [opAdvance_eq]; constructor <;> rfl
  | _ => constructor <;> rfl

theorem consOnly_opNextParts (n : Nat) (s : State) : ConsOnly s (opNextParts n s) :=
  opNextParts_keeps ConsOnly.refl ConsOnly.trans consOnly_part n s

theorem consOnly_opCstep (s : State) : ConsOnly s (opCstep s) :=
  ConsOnly.trans (t := (opRbrd s).consTo .taken) (by constructor <;> rfl) (consOnly_opNextParts 3 _)

theorem consOnly_opFinishCons (s : State) : ConsOnly s (opFinishCons s) :=
  opFinishCons_eq s ▸ consOnly_opNextParts _ s

theorem consOnly_opConsCancel (s : State) : ConsOnly s (opConsCancel s) := by
  rw [opConsCancel_eq]; constructor <;> rfl

theorem consOnly_opAwaitComplete (s : State) : ConsOnly s (opAwaitComplete s) := by
  rw [opAwaitComplete_eq]; constructor <;> rfl

/-! ## What PROD leaves alone -/

/-- From `s` to `t` at most PROD's registers, the slot, the ring, the stream, FLAGS and the event lines change (R290). -/
structure ProdOnly (s t : State) : Prop where
  hw : t.hw = s.hw
  regs : t.regs = s.regs
  cfg : t.cfg = s.cfg
  sup : t.sup = s.sup
  cons : t.cons = s.cons
  spectral : t.spectral = s.spectral
  cu : t.cu = s.cu
  fft : t.fft = s.fft
  cols : t.cols = s.cols
  port : t.port = s.port
  inputs : t.inputs = s.inputs
  tick : t.tick = s.tick

theorem ProdOnly.refl (s : State) : ProdOnly s s := by constructor <;> rfl

theorem ProdOnly.trans (h : ProdOnly s t) (h' : ProdOnly t u) : ProdOnly s u where
  hw := h'.hw.trans h.hw
  regs := h'.regs.trans h.regs
  cfg := h'.cfg.trans h.cfg
  sup := h'.sup.trans h.sup
  cons := h'.cons.trans h.cons
  spectral := h'.spectral.trans h.spectral
  cu := h'.cu.trans h.cu
  fft := h'.fft.trans h.fft
  cols := h'.cols.trans h.cols
  port := h'.port.trans h.port
  inputs := h'.inputs.trans h.inputs
  tick := h'.tick.trans h.tick

theorem prodOnly_opPfetch (s : State) : ProdOnly s (opPfetch s) := by
  obtain heq | ⟨a, src, -, heq⟩ := opPfetch_cases s <;> rw [heq] <;> constructor <;> rfl

theorem prodOnly_opPdecode (s : State) : ProdOnly s (opPdecode s) := by
  unfold opPdecode
  split <;> constructor <;> rfl

theorem prodOnly_opRbwr (s : State) : ProdOnly s (opRbwr s) := by constructor <;> rfl

theorem prodOnly_opCountFrame (s : State) : ProdOnly s (opCountFrame s) := by
  rw [opCountFrame_eq]; constructor <;> rfl

theorem prodOnly_opPstep (s : State) : ProdOnly s (opPstep s) :=
  (prodOnly_opPdecode s).trans ((prodOnly_opRbwr _).trans (prodOnly_opCountFrame _))

theorem prodOnly_opPeos (s : State) : ProdOnly s (opPeos s) := by rw [opPeos_eq]; constructor <;> rfl

theorem prodOnly_opProdCancel (s : State) : ProdOnly s (opProdCancel s) := by
  rw [opProdCancel_eq]; constructor <;> rfl

theorem prodOnly_opSignalComplete (s : State) : ProdOnly s (opSignalComplete s) := by
  unfold opSignalComplete
  split <;> constructor <;> rfl

theorem prodOnly_opFinishProd (s : State) : ProdOnly s (opFinishProd s) := by
  unfold opFinishProd
  split
  · exact .refl s
  · exact (prodOnly_opRbwr s).trans (prodOnly_opCountFrame _)
  · exact prodOnly_opCountFrame s

/-! ## How many parts are left -/

/-- Butterflies of the pass under way that are left, the one at work among them. -/
def bfliesLeft (p : Params) (x : FftTemps) : Nat := (p.chunk - x.k) / 2 - x.j

/-- Passes that are left, the one at work among them. -/
def passesLeft (p : Params) (x : FftTemps) : Nat := p.log2Chunk + 1 - Nat.log2 x.l

/-- The parts that are left of an FFT under way, each the coarsest that is due. -/
def fftPartsLeft (p : Params) (x : FftTemps) : Nat :=
  match x.phase with
  | .idle => 1
  | .pass => passesLeft p x + 1
  | .ready => 2 * bfliesLeft p x + passesLeft p x + 1
  | .product => 2 * bfliesLeft p x + passesLeft p x + 3
  | .sum => 2 * bfliesLeft p x + passesLeft p x + 2
  | .difference => 2 * bfliesLeft p x + passesLeft p x + 1
  | .advance => 2 * bfliesLeft p x + passesLeft p x

/-- The parts that are left of a CCOL: one, or the CDIVS and CABS of each bin that is left, and the rest. -/
def columnPartsLeft (p : Params) (x : Spectral) : Nat :=
  if x.divided = true then 2 * (p.chunk - x.bin) else if x.bin = 0 then 1 else 2 * (p.chunk - x.bin) + 1

/-- The parts that are left of a CSTEP under way. -/
def partsLeft (s : State) : Nat :=
  match s.cons.part with
  | .none => 0
  | .taken => 3
  | .chunk => 2
  | .gathered => 5
  | .windowed => fftPartsLeft s.hw s.fft + 3
  | .transformed => 3
  | .accumulated => 2
  | .column => columnPartsLeft s.hw s.spectral

theorem partsLeft_of_windowed (h : s.cons.part = .windowed) : partsLeft s = fftPartsLeft s.hw s.fft + 3 := by
  simp only [partsLeft, h]

theorem partsLeft_of_column (h : s.cons.part = .column) : partsLeft s = columnPartsLeft s.hw s.spectral := by
  simp only [partsLeft, h]

/-- Where no bin of a column is begun, one part of it is left. -/
theorem columnPartsLeft_of_fresh {p : Params} {x : Spectral} (h : x.bin = 0 ∧ x.divided = false) :
    columnPartsLeft p x = 1 := by simp [columnPartsLeft, h]

theorem partsLeft_opChunkDone_le (h : s.spectral.bin = 0 ∧ s.spectral.divided = false) :
    partsLeft (opChunkDone s) ≤ 1 := by
  by_cases hspc : s.cons.cnt = s.sup.spc
  · rw [partsLeft_of_column (if_pos hspc)]
    exact (columnPartsLeft_of_fresh h).le
  · have hnone : (opChunkDone s).cons.part = .none := if_neg hspc
    simp [partsLeft, hnone]

theorem partsLeft_opCountSample_le (h : s.spectral.bin = 0 ∧ s.spectral.divided = false) :
    partsLeft (opCountSample s) ≤ 2 := by
  rcases dueAfterSample_cases s.hw s.sup.spc s.cons.nchunk (s.cons.cnt + 1) with ⟨-, heq⟩ | ⟨-, -, -, heq⟩ | ⟨-, -, heq⟩
  all_goals change (opCountSample s).cons.part = _ at heq
  · simp [partsLeft, heq]
  · rw [partsLeft_of_column heq]
    exact (columnPartsLeft_of_fresh (x := (opCountSample s).spectral) h).le.trans one_le_two
  · simp [partsLeft, heq]

/-- The next pass is one less. -/
theorem passesLeft_opNextPass (h : passLegal s.hw.chunk s.fft.l) :
    passesLeft s.hw (opNextPass s).fft + 1 = passesLeft s.hw s.fft := by
  obtain ⟨hpow, htwo, hle⟩ := h
  have hlog : Nat.log2 s.fft.l ≤ s.hw.log2Chunk := by
    rw [hpow, chunk_eq] at hle
    exact (Nat.pow_le_pow_iff_right one_lt_two).1 hle
  show s.hw.log2Chunk + 1 - Nat.log2 (2 * s.fft.l) + 1 = s.hw.log2Chunk + 1 - Nat.log2 s.fft.l
  rw [log2_double htwo]
  omega

/-- After an advance the butterflies left are one less. -/
theorem bfliesLeft_opAdvance (h : bflyDue s) : bfliesLeft s.hw (opAdvance s).fft + 1 = bfliesLeft s.hw s.fft := by
  obtain ⟨⟨hpow, htwo, -⟩, -, hroom, hj⟩ := h
  have heven : s.fft.l % 2 = 0 := by
    have hlog : 1 ≤ Nat.log2 s.fft.l := (Nat.le_log2 (by omega)).2 htwo
    rw [hpow, ← Nat.sub_add_cancel hlog, Nat.pow_succ]
    exact Nat.mul_mod_left _ 2
  rw [opAdvance_eq]
  unfold bfliesLeft
  split
  · show (s.hw.chunk - s.fft.k) / 2 - (s.fft.j + 1) + 1 = (s.hw.chunk - s.fft.k) / 2 - s.fft.j
    omega
  · show (s.hw.chunk - (s.fft.k + s.fft.l)) / 2 - 0 + 1 = (s.hw.chunk - s.fft.k) / 2 - s.fft.j
    omega

theorem opAdvance_phase (s : State) : (opAdvance s).fft.phase = .ready := by
  rw [opAdvance_eq]
  show (if _ then _ else _ : FftTemps).phase = _
  split <;> rfl

theorem passesLeft_opAdvance (s : State) : passesLeft s.hw (opAdvance s).fft = passesLeft s.hw s.fft := by
  rw [opAdvance_eq]
  show passesLeft s.hw (if _ then _ else _) = _
  split <;> rfl

/-- A part of an FFT leaves fewer. -/
theorem partsLeft_opFftPart (h : Inv s) (hpart : s.cons.part = .windowed) : partsLeft (opFftPart s) < partsLeft s := by
  have hgoes {u : State} (hu : u.cons.part = .windowed) (hlt : fftPartsLeft u.hw u.fft < fftPartsLeft s.hw s.fft) :
      partsLeft u < partsLeft s := by
    rw [partsLeft_of_windowed hpart, partsLeft_of_windowed hu]
    exact Nat.add_lt_add_right hlt 3
  have hends (u : State) (hpos : 0 < fftPartsLeft s.hw s.fft) : partsLeft (opFftDone u) < partsLeft s := by
    rw [partsLeft_of_windowed hpart]
    exact Nat.lt_add_of_pos_left hpos
  unfold opFftPart
  cases hphase : s.fft.phase with
  | idle => exact hends _ (by simp [fftPartsLeft, hphase])
  | pass =>
    show partsLeft (if _ then _ else _) < _
    split
    case isTrue => exact hends s (by simp [fftPartsLeft, hphase])
    case isFalse hnot =>
      obtain ⟨hpow, htwo, -⟩ := h.fftPass hphase
      have hfewer := passesLeft_opNextPass ⟨hpow, htwo, not_lt.1 hnot⟩
      refine hgoes hpart ?_
      show passesLeft s.hw (opNextPass s).fft + 1 < _
      simp only [fftPartsLeft, hphase]
      omega
  | ready =>
    show partsLeft (if _ then _ else _) < _
    split
    case isTrue =>
      have hfewer := passesLeft_opNextPass (h.fftReady hphase).1
      refine hgoes hpart ?_
      show passesLeft s.hw (opNextPass s).fft + 1 < _
      simp only [fftPartsLeft, hphase]
      omega
    case isFalse => exact hgoes hpart (by simp only [fftPartsLeft, hphase]; exact Nat.lt_succ_self _)
  | product => exact hgoes hpart (by simp only [fftPartsLeft, hphase]; exact Nat.lt_succ_self _)
  | sum => exact hgoes hpart (by simp only [fftPartsLeft, hphase]; exact Nat.lt_succ_self _)
  | difference => exact hgoes hpart (by simp only [fftPartsLeft, hphase]; exact Nat.lt_succ_self _)
  | advance =>
    have hbflies := bfliesLeft_opAdvance (h.fftInside (by rw [hphase]; decide))
    refine hgoes (u := opAdvance s) (by rw [opAdvance_eq]; exact hpart) ?_
    rw [(show (opAdvance s).hw = s.hw from (consOnly_part s .advance).hw)]
    simp only [fftPartsLeft, hphase, opAdvance_phase, passesLeft_opAdvance]
    omega

/-- A part of a CCOL leaves fewer. -/
theorem partsLeft_opColumnPart (h : Inv s) (hpart : s.cons.part = .column) :
    partsLeft (opColumnPart s) < partsLeft s := by
  rw [partsLeft_of_column hpart]
  unfold opColumnPart
  split
  case isTrue hdivided =>
    have hlt : s.spectral.bin < s.hw.chunk := h.binInside.2 hdivided
    rw [partsLeft_of_column (show (opColumnMagnitude s).cons.part = .column from hpart)]
    simp only [columnPartsLeft, hdivided]
    show 2 * (s.hw.chunk - (s.spectral.bin + 1)) + 1 < 2 * (s.hw.chunk - s.spectral.bin)
    omega
  case isFalse hdivided =>
    split
    case isTrue =>
      have hleft : 0 < columnPartsLeft s.hw s.spectral := by
        rw [columnPartsLeft, if_neg hdivided]
        split <;> omega
      simpa only [partsLeft, opCcol_part] using hleft
    case isFalse hbin =>
      rw [partsLeft_of_column (show (opColumnDivide s).cons.part = .column from hpart), columnPartsLeft,
        columnPartsLeft, if_neg hdivided, if_neg fun hzero => hbin (.inl hzero)]
      exact Nat.lt_succ_self _

/-- Each part of a CSTEP under way leaves fewer. -/
theorem partsLeft_opNextPart (h : Inv s) (hpart : s.cons.part ≠ .none) : partsLeft (opNextPart s) < partsLeft s := by
  have hfresh (hcolumn : s.cons.part ≠ .column) := h.binOutside hcolumn
  unfold opNextPart
  cases hat : s.cons.part with
  | none => exact absurd hat hpart
  | taken =>
    have hle := partsLeft_opCountSample_le (hfresh (by rw [hat]; nofun))
    simpa only [partsLeft, hat] using Nat.lt_succ_of_le hle
  | chunk =>
    have hle := partsLeft_opChunkDone_le (s := opCchunk s) (hfresh (by rw [hat]; nofun))
    simpa only [partsLeft, hat] using Nat.lt_succ_of_le hle
  | gathered => simp [partsLeft, hat, opWindow_eq, fftPartsLeft]
  | windowed => exact partsLeft_opFftPart h hat
  | transformed => simp [partsLeft, hat]
  | accumulated =>
    have hle := partsLeft_opChunkDone_le (s := opCountChunk s) (hfresh (by rw [hat]; nofun))
    simpa only [partsLeft, hat] using Nat.lt_succ_of_le hle
  | column => exact partsLeft_opColumnPart h hat

/-- With no part left no CSTEP is under way. -/
theorem part_none_of_partsLeft (h : Inv s) (hleft : partsLeft s = 0) : s.cons.part = .none :=
  by_contra fun hpart => (Nat.not_lt_zero _) (hleft ▸ partsLeft_opNextPart h hpart)

/-- As many parts as are left finish a CSTEP. -/
theorem opNextParts_part (h : Inv s) {n : Nat} (hn : partsLeft s ≤ n) : (opNextParts n s).cons.part = .none := by
  induction n generalizing s with
  | zero => exact part_none_of_partsLeft h (Nat.le_zero.1 hn)
  | succ n ih =>
    by_cases hpart : s.cons.part = .none
    · rw [opNextParts_of_none s hpart]; exact hpart
    · exact ih h.opNextPart (Nat.le_of_lt_succ ((partsLeft_opNextPart h hpart).trans_le hn))

theorem two_mul_bfliesLeft_le (p : Params) (x : FftTemps) : 2 * bfliesLeft p x ≤ p.chunk := by
  unfold bfliesLeft
  omega

theorem fftPartsLeft_le (p : Params) (x : FftTemps) : fftPartsLeft p x ≤ p.chunk + p.log2Chunk + 4 := by
  have hbflies := two_mul_bfliesLeft_le p x
  have hpasses : passesLeft p x ≤ p.log2Chunk + 1 := Nat.sub_le _ _
  unfold fftPartsLeft
  split <;> omega

theorem columnPartsLeft_le (p : Params) (x : Spectral) : columnPartsLeft p x ≤ 2 * p.chunk + 1 := by
  unfold columnPartsLeft
  split
  · omega
  · split <;> omega

/-- No CSTEP has more parts left than a STOP takes. -/
theorem partsLeft_le (s : State) : partsLeft s ≤ partsBound s.hw := by
  have hfft := fftPartsLeft_le s.hw s.fft
  have hcolumn := columnPartsLeft_le s.hw s.spectral
  unfold partsLeft partsBound
  split <;> omega

theorem opFinishCons_part (h : Inv s) : (opFinishCons s).cons.part = .none := by
  rw [opFinishCons_eq]
  exact opNextParts_part h (partsLeft_le s)

/-! ## A STOP during a step -/

theorem Inv.opFinishCons (h : Inv s) : Inv (opFinishCons s) := opFinishCons_eq s ▸ h.opNextParts _

theorem opCountFrame_part (s : State) : (opCountFrame s).prod.part = .none := by
  rw [opCountFrame_eq]
  show (if _ then _ else _ : Producer).part = _
  split <;> rfl

theorem opFinishProd_part (s : State) : (opFinishProd s).prod.part = .none := by
  unfold opFinishProd
  split
  case h_1 hnone => exact hnone
  case h_2 => exact opCountFrame_part _
  case h_3 => exact opCountFrame_part _

theorem Inv.opFinishProd (h : Inv s) : Inv (opFinishProd s) := by
  cases hpart : s.prod.part with
  | none => rw [opFinishProd_of_none s hpart]; exact h
  | decoded =>
    rw [opFinishProd_of_decoded s hpart]
    exact h.opRbwr.opCountFrame (h.prodPart (by rw [hpart]; nofun)).1.1
  | written =>
    rw [opFinishProd_of_written s hpart]
    exact h.opCountFrame (h.prodPart (by rw [hpart]; nofun)).1.1

/-- What a STOP finds is finished. -/
theorem Inv.opFinish (h : Inv s) :
    Inv (opFinish s) ∧ (opFinish s).prod.part = .none ∧ (opFinish s).cons.part = .none := by
  refine ⟨h.opFinishProd.opFinishCons, ?_, opFinishCons_part h.opFinishProd⟩
  show (Machine.opFinishCons (Machine.opFinishProd s)).prod.part = .none
  rw [(consOnly_opFinishCons _).prod]
  exact opFinishProd_part s

end Sys2Proof.Machine
end

section
/-! PROOFS. The structural invariant holds at power-on (R53, R310) and every step keeps it, whatever the input. -/

namespace Sys2Proof.Machine

variable {s t : State} {i : Instr}

/-! ## Supervisor -/

/-- The records of an event are no part of the invariant. -/
theorem Inv.record (h : Inv s) (f : Flags) (l : EventLines) : Inv { s with flags := f, lines := l } := { h with }

/-- An accepted START finds both agents idle, so no step is under way, and PIXCOLS at least 1 (R250, R251). -/
theorem Inv.opStartAccepted (h : Inv s) (hidle : s.sup.sstate = .idle)
    (hlegal : configLegal s.regs.pixcols s.regs.layout = true) : Inv (opStartAccepted s) := by
  have hcons : s.cons.part = .none :=
    h.consPart_none fun hworks => absurd ((h.consIdle.2 hidle).symm.trans hworks.1) nofun
  have hpixcols : 0 < s.regs.pixcols.toNat := by
    simp only [configLegal, pixcolsLegal, Bool.and_eq_true, decide_eq_true_eq] at hlegal
    exact Nat.pos_of_ne_zero hlegal.1.1.1
  have hring := ringLen_pos s.hw
  exact
    { h with
      ringWf := rfl
      ringBelow := rfl
      wrLt := hring
      runLt := batch_pos s.hw
      rdLt := hring
      limRange := ⟨le_rfl, Int.natCast_pos.2 hring⟩
      prevRange := ⟨le_rfl, Int.natCast_pos.2 hring⟩
      ppendRange := ⟨neg_one_lt_zero.le, Int.natCast_pos.2 hring⟩
      positionRange := ⟨neg_one_lt_zero.le, Int.natCast_pos.2 hring⟩
      cntLt := fun hone _ => hone
      cntLe := fun _ => Nat.zero_le _
      accLen := List.length_replicate
      colsLen := nofun
      ncolEq := rfl
      ncolLe := Nat.zero_le _
      ncolLt := fun _ => hpixcols
      prodIdle := iff_of_false nofun nofun
      consIdle := iff_of_false nofun nofun
      runningIff := iff_of_true rfl rfl
      latched := fun hx => hx.elim nofun nofun
      timerIff := iff_of_false nofun fun hx => hx.elim nofun nofun
      prodExit := nofun
      prodLive := fun _ hx => absurd rfl hx
      consExit := nofun
      consLive := fun _ hx => absurd rfl hx
      prodPart := fun hx => absurd rfl hx
      consPart := fun hx => absurd rfl hx
      chunkDue := nofun
      columnDue := nofun
      binOutside := fun _ => h.binOutside (by rw [hcons]; nofun)
      fftOutside := fun hx => absurd (h.phase_idle (by rw [hcons]; nofun)) hx }

theorem Inv.running_false (h : Inv s) (hnot : s.sup.sstate ≠ .run) : s.sup.running = false :=
  Bool.eq_false_iff.2 fun hrun => hnot (h.runningIff.1 hrun)

/-- SUP goes on within a run: `running` is cleared for good, and no step is under way (R252, R254). -/
theorem Inv.supGoesOn (h : Inv s) (hprod : s.prod.part = .none) (hcons : s.cons.part = .none)
    (hlive : s.sup.sstate ≠ .idle) {x : Supervisor} (hx : x.sstate = .stopping ∨ x.sstate = .aborting)
    (hrunning : x.running = false) (htimer : x.timerArmed = true) (hspc : x.spc = s.sup.spc) : Inv (s.setSup x) := by
  have hidle : x.sstate ≠ .idle := by rcases hx with hx | hx <;> rw [hx] <;> nofun
  have hrun : x.sstate ≠ .run := by rcases hx with hx | hx <;> rw [hx] <;> nofun
  exact
    { h with
      cntLt := fun hone hx => hspc ▸ h.cntLt (hspc ▸ hone) hx
      cntLe := fun hone => hspc ▸ h.cntLe (hspc ▸ hone)
      prodIdle := iff_of_false (mt h.prodIdle.1 hlive) hidle
      consIdle := iff_of_false (mt h.consIdle.1 hlive) hidle
      runningIff := iff_of_false (by rw [setSup_sup, hrunning]; nofun) hrun
      latched := fun _ => hrunning
      timerIff := iff_of_true htimer hx
      prodLive := fun _ => h.prodLive hlive
      consLive := fun _ => h.consLive hlive
      prodPart := fun hx => absurd hprod hx
      consPart := fun hx => absurd hcons hx
      chunkDue := fun hx => absurd (hcons ▸ hx) (by decide)
      columnDue := fun hx => absurd (hcons.symm.trans hx) nofun }

theorem sup_opFinish (s : State) : (opFinish s).sup = s.sup :=
  (consOnly_opFinishCons _).sup.trans (prodOnly_opFinishProd s).sup

theorem Inv.stop (h : Inv s) (hrun : s.sup.sstate = .run) :
    Inv ((Machine.opFinish s).setSup { s.sup with running := false, timerArmed := true, sstate := .stopping }) := by
  obtain ⟨hinv, hprod, hcons⟩ := h.opFinish
  have hsup := sup_opFinish s
  exact hinv.supGoesOn hprod hcons (by rw [hsup, hrun]; nofun) (.inl rfl) rfl rfl
    (congrArg Supervisor.spc hsup).symm

theorem Inv.expire (h : Inv s) (hstopping : s.sup.sstate = .stopping) (pabort cabort : Bool) :
    Inv ((raise .expiry s).setSup { s.sup with pabort := pabort, cabort := cabort, sstate := .aborting }) := by
  have hrunning := h.running_false (by rw [hstopping]; nofun)
  have hraised : Inv (raise .expiry s) := by rw [raise_expiry]; exact h.record _ s.lines
  exact hraised.supGoesOn (h.prodPart_none_of_cancelled (.inr hrunning)) (h.consPart_none_of_cancelled (.inr hrunning))
    (by rw [raise_sup, hstopping]; nofun) (.inr rfl) hrunning (h.timerIff.2 (.inl hstopping)) rfl

/-- JOIN finds both agents gone and leaves them idle (R255). -/
theorem Inv.join (h : Inv s) (hsup : s.sup.sstate = .stopping ∨ s.sup.sstate = .aborting) :
    Inv (((s.setSup { s.sup with timerArmed := false, sstate := .idle }).setProd
        { s.prod with pstate := .idle }).setCons { s.cons with cstate := .idle }) := by
  have hrunning := h.running_false (by rcases hsup with hx | hx <;> rw [hx] <;> nofun)
  have hprod := h.prodPart_none_of_cancelled (.inr hrunning)
  have hcons := h.consPart_none_of_cancelled (.inr hrunning)
  exact
    { h with
      ncolLt := fun hx => hx.elim nofun nofun
      prodIdle := iff_of_true rfl rfl
      consIdle := iff_of_true rfl rfl
      runningIff := iff_of_false (by show s.sup.running ≠ true; rw [hrunning]; nofun) nofun
      timerIff := iff_of_false nofun fun hx => hx.elim nofun nofun
      prodExit := nofun
      prodLive := fun hx => absurd rfl hx
      consExit := nofun
      consLive := fun hx => absurd rfl hx
      prodPart := fun hx => absurd hprod hx
      consPart := fun hx => absurd hcons hx }

/-! ## Every operation and every input -/

theorem Inv.opTaken (h : Inv s) (htaken : OpTaken s i t) : Inv t := by
  cases htaken with
  | busy => rw [raise_busy]; exact h.record _ s.lines
  | configError => rw [raise_configError]; exact h.record _ _
  | openFailure => rw [raise_openFailure]; exact h.record _ _
  | started hidle hlegal => exact h.opStartAccepted hidle hlegal
  | stop hrun => exact h.stop hrun
  | expire hdue => exact h.expire hdue.1 _ _
  | join hdue => exact h.join hdue.1
  | rbwr hdue =>
    obtain ⟨hworks, hdecoded⟩ := hdue
    exact h.opRbwr.prodTo hworks (h.prodPart (by rw [hdecoded]; nofun)).2 .written
  | pfetch hdue => exact h.opPfetch hdue.1.2
  | pdecode hdue =>
    obtain ⟨f, hf⟩ := hasFrame_iff.1 hdue.2
    have hdecoded := h.opPdecode
    rw [opPdecode_of_frame s hf] at hdecoded ⊢
    exact hdecoded.prodTo hdue.1.1 hdue.2 .decoded
  | pstep hdue =>
    obtain ⟨f, hf⟩ := hasFrame_iff.1 hdue.2
    have hwritten := h.opPdecode.opRbwr
    unfold opPstep
    rw [opPdecode_of_frame s hf] at hwritten ⊢
    exact hwritten.opCountFrame hdue.1.1.1
  | pstepEnd hdue => exact h.opCountFrame hdue.1.1
  | peos hdue => exact h.opPeos hdue.1.1.1 hdue.1.2
  | pfail hdue =>
    have hexits := h.prodExits (x := { s.prod with pexit := .failed, pstate := .exit })
      (prodAtWork_of_run hdue.1.1.1) rfl nofun hdue.1.2 ⟨h.wrLt, h.runLt, h.ppendRange⟩ h.positionRange
    rw [raise_decodeFailure]
    exact hexits.record _ _
  | pexit hdue => exact h.opProdCancel (hdue.1.elim prodAtWork_of_run prodAtWork_of_waits) hdue.2
  | signalCancel hwaits hcancel => exact h.opProdCancel (prodAtWork_of_waits hwaits) hcancel
  | signalComplete hwaits => exact h.opSignalComplete hwaits
  | awaitCancel hawait hcancel => exact h.opConsCancel (by rw [hawait]; nofun) hcancel
  | awaitComplete hawait => exact h.opAwaitComplete hawait
  | awaitEnter hdue => exact h.opAwaitEnter hdue.1
  | cexit hdue => exact h.opConsCancel (by rcases hdue.1 with hx | hx <;> rw [hx] <;> nofun) hdue.2
  | rbrd hdue => exact h.rbrd hdue.1
  | cstep hdue => exact (h.rbrd hdue.1).opNextParts 3
  | part p hdue => exact h.part p hdue

theorem Inv.exec (h : Inv s) (hexec : exec i s = .next t) : Inv t := by
  rcases exec_cases hexec with rfl | htaken
  · exact h
  · exact h.opTaken htaken

/-- CHX is zero in LAYOUT as it is stored (R35). -/
theorem layoutChx_storeLayout (v : BitVec 32) : layoutChx (storeLayout v) = 0#4 := by
  rw [layoutChx, storeLayout, BitVec.extractLsb'_and]
  exact BitVec.and_zero

theorem layoutChx_writeConfig {r : HostRegs} (i : Nat) (v : BitVec 64) (h : layoutChx r.layout = 0#4) :
    layoutChx (writeConfig r i v).layout = 0#4 := by
  unfold writeConfig
  split
  case h_4 => exact layoutChx_storeLayout _
  all_goals exact h

/-- What an input does: it runs an operation; HOST configures the block while it is idle, or is refused; or nothing
changes but the answer to a read and the stream (R29, R42, R43, R50, R88, R107, R201). -/
inductive InputTaken (s : State) : State → Prop
  | op (i : Instr) {t : State} (h : exec i s = .next t) : InputTaken s t
  | configured (h : s.sup.sstate = .idle) (i : Nat) (v : BitVec 64) :
      InputTaken s (s.setRegs (writeConfig s.regs i v))
  | badCommand : InputTaken s (raise .badCommand s)
  | busy : InputTaken s (raise .busy s)
  | environment (port : HostPort) (src : Source) : InputTaken s { s with port := port, src := src }

theorem inputTaken_of_writeCommand {w : Word} (h : writeCommand w s = .next t) : InputTaken s t := by
  unfold writeCommand at h
  split at h
  · exact .op .start h
  · exact .op .stop h
  · cases h; exact .badCommand

theorem inputTaken_of_writeReg {i : Nat} {v : BitVec 64} (h : writeReg i v s = .next t) : InputTaken s t := by
  unfold writeReg at h
  split at h
  case isTrue => exact inputTaken_of_writeCommand h
  case isFalse =>
    split at h
    case isTrue =>
      cases h
      split
      case isTrue hidle => exact .configured hidle i v
      case isFalse => exact .busy
    case isFalse => cases h; exact .environment s.port s.src

/-- An input that does not stop the machine is one of the list. -/
theorem inputTaken_of_applyInput {x : Input} (h : applyInput x s = .next t) : InputTaken s t := by
  cases x with
  | op w =>
    cases hdecode : decode w with
    | ok i => simp only [applyInput, hdecode] at h; exact .op i h
    | error r => simp only [applyInput, hdecode] at h; cases h
  | hostWrite addr v =>
    change hostWrite addr v s = _ at h
    unfold hostWrite at h
    split at h
    · exact inputTaken_of_writeReg h
    · cases h
  | hostRead addr =>
    change hostRead addr s = _ at h
    unfold hostRead at h
    split at h
    · cases h; exact .environment _ s.src
    · cases h
  | readColumn col bin =>
    change readColumn col bin s = _ at h
    unfold readColumn at h
    split at h
    · cases h; exact .environment _ s.src
    · cases h
  | srcAttach bytes tail => cases h; exact .environment s.port _
  | srcDetach => cases h; exact .environment s.port _
  | srcDeliver bytes =>
    cases h
    unfold srcDeliver
    split <;> exact .environment s.port _
  | srcEnd tail =>
    cases h
    unfold srcEnd
    split <;> exact .environment s.port _

theorem Inv.inputTaken (h : Inv s) (htaken : InputTaken s t) : Inv t := by
  cases htaken with
  | op i hexec => exact h.exec hexec
  | configured _ i v => exact { h with chxZero := layoutChx_writeConfig i v h.chxZero }
  | badCommand => rw [raise_badCommand]; exact h.record _ s.lines
  | busy => rw [raise_busy]; exact h.record _ s.lines
  | environment port src => exact { h with }

theorem Inv.takeInput (h : Inv s) : Inv (takeInput s).2 := by
  unfold Machine.takeInput
  split <;> exact { h with }

/-- Settles O59: what an operation does is one of the ways of `OpTaken`, and each keeps the invariant. -/
theorem stepKeepsInvariant : Obligations.StepKeepsInvariant :=
  fun _ _ h hstep => h.takeInput.inputTaken (inputTaken_of_applyInput hstep)

end Sys2Proof.Machine
end

section
/-! PROOFS. What every step carries on: the configuration of a run, FLAGS once set, and the columns emitted (R39, R44, R51,
R86). Only an accepted START, which builds a new context, does not. -/

namespace Sys2Proof.Machine

variable {s t u : State} {i : Instr}

/-! ## The relation -/

/-- Every flag set in `f` is set in `g`. -/
def Flags.le (f g : Flags) : Prop :=
  (f.flat = true → g.flat = true) ∧ (f.decodeFail = true → g.decodeFail = true) ∧
  (f.badCmd = true → g.badCmd = true) ∧ (f.busy = true → g.busy = true) ∧
  (f.cfgErr = true → g.cfgErr = true) ∧ (f.expired = true → g.expired = true)

theorem Flags.le_refl (f : Flags) : f.le f := ⟨id, id, id, id, id, id⟩

theorem Flags.le_trans {f g h : Flags} (hfg : f.le g) (hgh : g.le h) : f.le h := by
  obtain ⟨hflat, hfail, hbad, hbusy, hcfg, hexpired⟩ := hfg
  obtain ⟨hflat', hfail', hbad', hbusy', hcfg', hexpired'⟩ := hgh
  exact ⟨hflat' ∘ hflat, hfail' ∘ hfail, hbad' ∘ hbad, hbusy' ∘ hbusy, hcfg' ∘ hcfg, hexpired' ∘ hexpired⟩

/-- An event sets flags and clears none (R39). -/
theorem Flags.le_after (f : Flags) (e : Event) : f.le (f.after e) := by
  cases e <;> simp [Flags.le, Flags.after]

/-- What `t` carries on from `s`. -/
structure Carries (s t : State) : Prop where
  hw : t.hw = s.hw
  regs : t.regs = s.regs
  cfg : t.cfg = s.cfg
  spc : t.sup.spc = s.sup.spc
  flags : s.flags.le t.flags
  cols : s.cols <+: t.cols
  pulses : t.cols.length + s.lines.evColumn = s.cols.length + t.lines.evColumn

/-- A step that writes none of it. -/
theorem carries_of_same (hw : t.hw = s.hw) (regs : t.regs = s.regs) (cfg : t.cfg = s.cfg)
    (spc : t.sup.spc = s.sup.spc) (flags : t.flags = s.flags) (cols : t.cols = s.cols) (lines : t.lines = s.lines) :
    Carries s t where
  hw := hw
  regs := regs
  cfg := cfg
  spc := spc
  flags := flags ▸ Flags.le_refl _
  cols := cols ▸ List.prefix_rfl
  pulses := by rw [cols, lines]

theorem Carries.refl (s : State) : Carries s s := carries_of_same rfl rfl rfl rfl rfl rfl rfl

theorem Carries.trans (h : Carries s t) (h' : Carries t u) : Carries s u where
  hw := h'.hw.trans h.hw
  regs := h'.regs.trans h.regs
  cfg := h'.cfg.trans h.cfg
  spc := h'.spc.trans h.spc
  flags := Flags.le_trans h.flags h'.flags
  cols := h.cols.trans h'.cols
  pulses := by have := h.pulses; have := h'.pulses; omega

/-! ## Every operation but an accepted START -/

theorem carries_raise (s : State) (e : Event) : Carries s (raise e s) where
  hw := rfl
  regs := rfl
  cfg := rfl
  spc := rfl
  flags := s.flags.le_after e
  cols := List.prefix_rfl
  pulses := by cases e <;> rfl

theorem carries_opColumn (s : State) : Carries s (opColumn s) := by
  have hscratch : Carries s (s.setSpectral (columnScratch s.hw s.cons.nchunk s.spectral)) :=
    carries_of_same rfl rfl rfl rfl rfl rfl rfl
  unfold opColumn
  dsimp only
  split
  · exact hscratch
  · exact hscratch.trans (carries_raise _ _)

/-- The emission of a column, with its pulse (R230). -/
theorem carries_opEmit (s : State) : Carries s (opEmit s) := by
  rw [opEmit_eq]
  split
  · exact
      { hw := rfl, regs := rfl, cfg := rfl, spc := rfl, flags := Flags.le_refl _, cols := ⟨_, rfl⟩
        pulses := by rw [List.length_append, List.length_singleton, Nat.add_assoc, Nat.add_comm 1] }
  · exact .refl s

theorem carries_opCloseColumn (s : State) : Carries s (opCloseColumn s) := by
  rw [opCloseColumn_eq]
  exact carries_of_same rfl rfl rfl rfl rfl rfl rfl

theorem carries_part (s : State) (p : CstepPart) : Carries s (p.effect s) := by
  cases p with
  | ccol => exact (carries_opColumn s).trans ((carries_opEmit _).trans (carries_opCloseColumn _))
  | cchunk =>
    show Carries s (opChunkDone (opCchunk s))
    rw [opCchunk_eq]
    exact carries_of_same rfl rfl rfl rfl rfl rfl rfl
  | advance =>
    show Carries s (opAdvance s)
    rw [opAdvance_eq]
    exact carries_of_same rfl rfl rfl rfl rfl rfl rfl
  | _ => exact carries_of_same rfl rfl rfl rfl rfl rfl rfl

theorem carries_opNextParts (n : Nat) (s : State) : Carries s (opNextParts n s) :=
  opNextParts_keeps Carries.refl Carries.trans carries_part n s

theorem carries_opCountFrame (s : State) : Carries s (opCountFrame s) := by
  rw [opCountFrame_eq]
  exact carries_of_same rfl rfl rfl rfl rfl rfl rfl

theorem carries_opRbwr (s : State) : Carries s (opRbwr s) := carries_of_same rfl rfl rfl rfl rfl rfl rfl

theorem carries_opPdecode (s : State) : Carries s (opPdecode s) := by
  unfold opPdecode
  split <;> exact carries_of_same rfl rfl rfl rfl rfl rfl rfl

theorem carries_opFinish (s : State) : Carries s (opFinish s) := by
  have hprod : Carries s (opFinishProd s) := by
    unfold opFinishProd
    split
    · exact .refl s
    · exact (carries_opRbwr s).trans (carries_opCountFrame _)
    · exact carries_opCountFrame s
  refine hprod.trans ?_
  show Carries (opFinishProd s) (opFinishCons (opFinishProd s))
  rw [opFinishCons_eq]
  exact carries_opNextParts _ _

/-- Every operation carries on what the block holds, but an accepted START. -/
theorem carries_of_opTaken (h : OpTaken s i t) :
    Carries s t ∨ (i = .start ∧ s.sup.sstate = .idle ∧ t = opStartAccepted s) := by
  cases h with
  | started hidle => exact .inr ⟨rfl, hidle, rfl⟩
  | busy | configError | openFailure | pfail => exact .inl (carries_raise s _)
  | stop => exact .inl ((carries_opFinish s).trans
      (carries_of_same rfl rfl rfl (congrArg Supervisor.spc (sup_opFinish s)).symm rfl rfl rfl))
  | expire => exact .inl ((carries_raise s .expiry).trans (carries_of_same rfl rfl rfl rfl rfl rfl rfl))
  | pfetch =>
    refine .inl ?_
    obtain heq | ⟨a, src, -, heq⟩ := opPfetch_cases s <;> rw [heq]
    · exact .refl s
    · exact carries_of_same rfl rfl rfl rfl rfl rfl rfl
  | pdecode => exact .inl ((carries_opPdecode s).trans (carries_of_same rfl rfl rfl rfl rfl rfl rfl))
  | pstep => exact .inl ((carries_opPdecode s).trans ((carries_opRbwr _).trans (carries_opCountFrame _)))
  | pstepEnd => exact .inl (carries_opCountFrame s)
  | peos => rw [opPeos_eq]; exact .inl (carries_of_same rfl rfl rfl rfl rfl rfl rfl)
  | pexit | signalCancel => rw [opProdCancel_eq]; exact .inl (carries_of_same rfl rfl rfl rfl rfl rfl rfl)
  | signalComplete hwaits =>
    obtain ⟨pp, px, ps, heq, -⟩ := opSignalComplete_cases s hwaits
    rw [heq]
    exact .inl (carries_of_same rfl rfl rfl rfl rfl rfl rfl)
  | awaitCancel | cexit => rw [opConsCancel_eq]; exact .inl (carries_of_same rfl rfl rfl rfl rfl rfl rfl)
  | awaitComplete => rw [opAwaitComplete_eq]; exact .inl (carries_of_same rfl rfl rfl rfl rfl rfl rfl)
  | join | rbwr | awaitEnter | rbrd => exact .inl (carries_of_same rfl rfl rfl rfl rfl rfl rfl)
  | cstep =>
    have hread : Carries s ((opRbrd s).consTo .taken) := carries_of_same rfl rfl rfl rfl rfl rfl rfl
    exact .inl (hread.trans (carries_opNextParts 3 _))
  | part p => exact .inl (carries_part s p)

theorem carries_of_exec (h : exec i s = .next t) :
    Carries s t ∨ (i = .start ∧ s.sup.sstate = .idle ∧ t = opStartAccepted s) := by
  rcases exec_cases h with rfl | htaken
  · exact .inl (.refl t)
  · exact carries_of_opTaken htaken

/-! ## Every step -/

theorem carries_takeInput (s : State) : Carries s (takeInput s).2 := by
  unfold takeInput
  split <;> exact carries_of_same rfl rfl rfl rfl rfl rfl rfl

theorem takeInput_sup (s : State) : (takeInput s).2.sup = s.sup := by
  unfold takeInput
  split <;> rfl

/-- Out of a state that is not idle every input carries on what the block holds. -/
theorem carries_of_inputTaken (hlive : s.sup.sstate ≠ .idle) (h : InputTaken s t) : Carries s t := by
  cases h with
  | op i hexec => exact (carries_of_exec hexec).resolve_right fun hstart => hlive hstart.2.1
  | configured hidle => exact absurd hidle hlive
  | badCommand | busy => exact carries_raise s _
  | environment => exact carries_of_same rfl rfl rfl rfl rfl rfl rfl

/-- Settles O55: out of a state that is not idle every step carries the configuration on. -/
theorem configurationFixedInARun : Obligations.ConfigurationFixedInARun := by
  intro s t hlive hstep
  have hcarries : Carries s t := (carries_takeInput s).trans
    (carries_of_inputTaken (by rw [takeInput_sup]; exact hlive) (inputTaken_of_applyInput hstep))
  exact ⟨hcarries.cfg, hcarries.regs, hcarries.spc, hcarries.hw⟩

/-- The log grows under every input, with one pulse for each column, or an accepted START empties it. -/
theorem cols_of_inputTaken (h : InputTaken s t) :
    (s.cols <+: t.cols ∧ t.cols.length + s.lines.evColumn = s.cols.length + t.lines.evColumn) ∨
    (s.sup.sstate = .idle ∧ t.sup.sstate = .run ∧ t.cols = []) := by
  by_cases hidle : s.sup.sstate = .idle
  · cases h with
    | op i hexec =>
      rcases carries_of_exec hexec with hcarries | ⟨-, -, rfl⟩
      · exact .inl ⟨hcarries.cols, hcarries.pulses⟩
      · exact .inr ⟨hidle, rfl, rfl⟩
    | configured | environment => exact .inl ⟨List.prefix_rfl, rfl⟩
    | badCommand | busy => exact .inl ⟨(carries_raise s _).cols, (carries_raise s _).pulses⟩
  · have hcarries := carries_of_inputTaken hidle h
    exact .inl ⟨hcarries.cols, hcarries.pulses⟩

/-- A read of an emitted value answers it (R88). -/
theorem readColumn_of_emitted {n b : Nat} {col : List F64} {x : F64} (hn : n < s.cons.ncol) (hb : b < s.hw.chunk)
    (hcol : s.cols[n]? = some col) (hx : col[b]? = some x) :
    readColumn n b s = .next (s.setPort { data := x }) := by
  have hvalue : (s.cols.getD n []).getD b fZero = x := by
    rw [List.getD_eq_getElem?_getD, List.getD_eq_getElem?_getD, hcol, Option.getD_some, hx, Option.getD_some]
  rw [readColumn, if_pos ⟨hn, hb⟩, hvalue]

/-- Settles O54: taking the input leaves the log, and every input lets it grow or is an accepted START. -/
theorem columnLogOnlyGrows : Obligations.ColumnLogOnlyGrows := by
  refine ⟨fun s t hstep => ?_, fun s n b col x rest hinputs hn hb hcol hx => ?_⟩
  · have htake := carries_takeInput s
    rcases cols_of_inputTaken (inputTaken_of_applyInput hstep) with ⟨hcols, hpulses⟩ | ⟨hidle, hrun, hempty⟩
    · exact .inl ⟨htake.cols.trans hcols, by have := htake.pulses; omega⟩
    · exact .inr ⟨takeInput_sup s ▸ hidle, hrun, hempty⟩
  · rw [step, takeInput_of_cons s hinputs]
    exact readColumn_of_emitted (s := s.setInputs rest) hn hb hcol hx

end Sys2Proof.Machine
end

section
/-! PROOFS. FLAGS are sticky, and no operation reads one (R39): other flags before an operation make other flags after
it, and nothing else. -/

namespace Sys2Proof.Machine

/-! ## Updates that read no flag -/

/-- From states that differ in FLAGS alone `op` leads to states that differ in FLAGS alone. -/
def FlagBlind (op : State → State) : Prop :=
  ∀ (s : State) (f : Flags), ∃ g, op (s.setFlags f) = (op s).setFlags g

theorem FlagBlind.id : FlagBlind fun s => s := fun _ f => ⟨f, rfl⟩

/-- An update that leaves FLAGS as it finds them. -/
theorem FlagBlind.of_keeps {op : State → State} (h : ∀ s f, op (s.setFlags f) = (op s).setFlags f) : FlagBlind op :=
  fun s f => ⟨f, h s f⟩

theorem FlagBlind.comp {a b : State → State} (hb : FlagBlind b) (ha : FlagBlind a) : FlagBlind fun s => b (a s) := by
  intro s f
  obtain ⟨g, hg⟩ := ha s f
  obtain ⟨g', hg'⟩ := hb (a s) g
  exact ⟨g', by show b (a (s.setFlags f)) = _; rw [hg, hg']⟩

/-- A choice between two updates by a condition that reads no flag. -/
theorem FlagBlind.ite {c : State → Prop} [∀ s, Decidable (c s)] {a b : State → State}
    (hc : ∀ s f, c (s.setFlags f) ↔ c s) (ha : FlagBlind a) (hb : FlagBlind b) :
    FlagBlind fun s => if c s then a s else b s := by
  intro s f
  by_cases h : c s
  · obtain ⟨g, hg⟩ := ha s f
    exact ⟨g, by dsimp only; rw [if_pos h, if_pos ((hc s f).2 h), hg]⟩
  · obtain ⟨g, hg⟩ := hb s f
    exact ⟨g, by dsimp only; rw [if_neg h, if_neg (mt (hc s f).1 h), hg]⟩

theorem flagBlind_raise (e : Event) : FlagBlind (raise e) := fun _ f => ⟨f.after e, rfl⟩

/-! ## Producer -/

theorem flagBlind_opRbwr : FlagBlind opRbwr := .of_keeps fun _ _ => rfl

theorem flagBlind_opPdecode : FlagBlind opPdecode := .of_keeps fun s f => by
  unfold opPdecode
  rw [setFlags_prod]
  split <;> rfl

theorem flagBlind_prodTo (p : ProdPart) : FlagBlind fun s => s.prodTo p := .of_keeps fun _ _ => rfl

theorem flagBlind_opPfetch : FlagBlind opPfetch := .of_keeps fun s f => by
  unfold opPfetch
  rw [setFlags_src, setFlags_cfg]
  split <;> rfl

theorem flagBlind_opCountFrame : FlagBlind opCountFrame := .of_keeps fun s f => by
  rw [opCountFrame_eq, opCountFrame_eq]; rfl

theorem flagBlind_opPeos : FlagBlind opPeos := .of_keeps fun s f => by rw [opPeos_eq, opPeos_eq]; rfl

theorem flagBlind_opProdCancel : FlagBlind opProdCancel := .of_keeps fun s f => by
  rw [opProdCancel_eq, opProdCancel_eq]; rfl

theorem flagBlind_opSignalComplete : FlagBlind opSignalComplete := .of_keeps fun s f => by
  unfold opSignalComplete
  rw [setFlags_prod]
  split <;> rfl

theorem flagBlind_opFinishProd : FlagBlind opFinishProd := by
  intro s f
  cases hpart : s.prod.part with
  | none => exact ⟨f, by rw [opFinishProd_of_none s hpart, opFinishProd_of_none (s.setFlags f) hpart]⟩
  | decoded =>
    rw [opFinishProd_of_decoded s hpart, opFinishProd_of_decoded (s.setFlags f) hpart]
    exact flagBlind_opCountFrame.comp flagBlind_opRbwr s f
  | written =>
    rw [opFinishProd_of_written s hpart, opFinishProd_of_written (s.setFlags f) hpart]
    exact flagBlind_opCountFrame s f

/-! ## Consumer -/

theorem flagBlind_opConsCancel : FlagBlind opConsCancel := .of_keeps fun s f => by
  rw [opConsCancel_eq, opConsCancel_eq]; rfl

theorem flagBlind_opAwaitComplete : FlagBlind opAwaitComplete := .of_keeps fun s f => by
  rw [opAwaitComplete_eq, opAwaitComplete_eq]; rfl

theorem flagBlind_opColumn : FlagBlind opColumn := fun s f => ⟨_, by rw [opColumn_eq, opColumn_eq]; rfl⟩

theorem flagBlind_opEmit : FlagBlind opEmit := .ite (fun _ _ => Iff.rfl) (.of_keeps fun _ _ => rfl) .id

theorem flagBlind_opCloseColumn : FlagBlind opCloseColumn := .of_keeps fun s f => by
  rw [opCloseColumn_eq, opCloseColumn_eq]; rfl

theorem flagBlind_opCcol : FlagBlind opCcol :=
  flagBlind_opCloseColumn.comp (flagBlind_opEmit.comp flagBlind_opColumn)

theorem flagBlind_part (p : CstepPart) : FlagBlind fun s => p.effect s := by
  cases p with
  | ccol => exact flagBlind_opCcol
  | cchunk =>
    refine .of_keeps fun s f => ?_
    show opChunkDone (opCchunk _) = (opChunkDone (opCchunk s)).setFlags f
    rw [opCchunk_eq, opCchunk_eq]; rfl
  | advance =>
    refine .of_keeps fun s f => ?_
    show opAdvance _ = (opAdvance s).setFlags f
    rw [opAdvance_eq, opAdvance_eq]; rfl
  | _ => exact .of_keeps fun _ _ => rfl

theorem flagBlind_opFftPart : FlagBlind opFftPart := by
  intro s f
  unfold opFftPart
  rw [setFlags_fft]
  cases s.fft.phase with
  | idle => exact flagBlind_part .fft s f
  | pass =>
    exact FlagBlind.ite (c := fun s => s.hw.chunk < s.fft.l) (fun _ _ => Iff.rfl) (flagBlind_part .fftEnd) (flagBlind_part .bfpass) s f
  | ready =>
    exact FlagBlind.ite (c := fun s => s.fft.k = s.hw.chunk) (fun _ _ => Iff.rfl) (flagBlind_part .bfpassEnd) (flagBlind_part .bfly) s f
  | product => exact flagBlind_part .sum s f
  | sum => exact flagBlind_part .difference s f
  | difference => exact flagBlind_part .bflyEnd s f
  | advance => exact flagBlind_part .advance s f

theorem flagBlind_opColumnPart : FlagBlind opColumnPart :=
  .ite (fun _ _ => Iff.rfl) (flagBlind_part .magnitude)
    (.ite (fun _ _ => Iff.rfl) (flagBlind_part .ccol) (flagBlind_part .divide))

theorem flagBlind_opNextPart : FlagBlind opNextPart := by
  intro s f
  unfold opNextPart
  rw [setFlags_cons]
  cases s.cons.part with
  | none => exact ⟨f, rfl⟩
  | taken => exact flagBlind_part .count s f
  | chunk => exact flagBlind_part .cchunk s f
  | gathered => exact flagBlind_part .window s f
  | windowed => exact flagBlind_opFftPart s f
  | transformed => exact flagBlind_part .acc s f
  | accumulated => exact flagBlind_part .cchunkEnd s f
  | column => exact flagBlind_opColumnPart s f

theorem flagBlind_opNextParts (n : Nat) : FlagBlind (opNextParts n) := by
  induction n with
  | zero => exact .id
  | succ n ih => exact ih.comp flagBlind_opNextPart

theorem flagBlind_opFinishCons : FlagBlind opFinishCons := by
  intro s f
  rw [opFinishCons_eq, opFinishCons_eq]
  exact flagBlind_opNextParts _ s f

theorem flagBlind_opFinish : FlagBlind opFinish := flagBlind_opFinishCons.comp flagBlind_opFinishProd

/-! ## Every operation -/

theorem flagBlind_stop : FlagBlind fun s =>
    (opFinish s).setSup { s.sup with running := false, timerArmed := true, sstate := .stopping } := by
  intro s f
  obtain ⟨g, hg⟩ := flagBlind_opFinish s f
  exact ⟨g, by dsimp only; rw [hg]; rfl⟩

theorem flagBlind_start : FlagBlind opStartAccepted := fun _ _ => ⟨Flags.clear, rfl⟩

/-- `FlagBlind` of an operation's meaning: on every state an update that reads no flag. -/
def ResultFlagBlind (op : State → Result) : Prop := ∃ a : State → State, FlagBlind a ∧ ∀ s, op s = .next (a s)

/-- A meaning with one condition. -/
theorem ResultFlagBlind.stepIf {c : State → Prop} [∀ s, Decidable (c s)] {a : State → State}
    (hc : ∀ s f, c (s.setFlags f) ↔ c s) (ha : FlagBlind a) : ResultFlagBlind fun s => stepIf (c s) (a s) s :=
  ⟨_, .ite hc ha .id, fun _ => rfl⟩

/-- A meaning with two conditions, tried in turn. -/
theorem ResultFlagBlind.two {c d : State → Prop} [∀ s, Decidable (c s)] [∀ s, Decidable (d s)] {a b : State → State}
    (hc : ∀ s f, c (s.setFlags f) ↔ c s) (hd : ∀ s f, d (s.setFlags f) ↔ d s) (ha : FlagBlind a) (hb : FlagBlind b) :
    ResultFlagBlind fun s => .next (if c s then a s else if d s then b s else s) :=
  ⟨_, .ite hc ha (.ite hd hb .id), fun _ => rfl⟩

theorem flagBlind_exec (i : Instr) : ResultFlagBlind (exec i) := by
  cases i with
  | ppoll | cpoll => exact ⟨_, .id, fun _ => rfl⟩
  | start =>
    exact ⟨_, .ite (fun _ _ => Iff.rfl) (flagBlind_raise .busy) (.ite (fun _ _ => Iff.rfl) (flagBlind_raise .configError)
      (.ite (fun _ _ => Iff.rfl) (flagBlind_raise .openFailure) flagBlind_start)), fun _ => rfl⟩
  | stop => exact .stepIf (fun _ _ => Iff.rfl) flagBlind_stop
  | expire => exact .stepIf (fun _ _ => Iff.rfl) fun _ f => ⟨f.after .expiry, rfl⟩
  | join => exact .stepIf (fun _ _ => Iff.rfl) (.of_keeps fun _ _ => rfl)
  | rbwr => exact .stepIf (fun _ _ => Iff.rfl) (.of_keeps fun _ _ => rfl)
  | pfetch => exact .stepIf (fun _ _ => Iff.rfl) flagBlind_opPfetch
  | pdecode => exact .stepIf (fun _ _ => Iff.rfl) ((flagBlind_prodTo .decoded).comp flagBlind_opPdecode)
  | pstep =>
    exact .two (fun _ _ => Iff.rfl) (fun _ _ => Iff.rfl)
      (flagBlind_opCountFrame.comp (flagBlind_opRbwr.comp flagBlind_opPdecode)) flagBlind_opCountFrame
  | peos => exact .stepIf (fun _ _ => Iff.rfl) flagBlind_opPeos
  | pfail => exact .stepIf (fun _ _ => Iff.rfl) (flagBlind_raise .decodeFailure)
  | pexit => exact .stepIf (fun _ _ => Iff.rfl) flagBlind_opProdCancel
  | signal =>
    exact ⟨_, .ite (fun _ _ => Iff.rfl) (.ite (fun _ _ => Iff.rfl) flagBlind_opProdCancel
      (.ite (fun _ _ => Iff.rfl) flagBlind_opSignalComplete .id)) .id, fun _ => rfl⟩
  | await =>
    exact ⟨_, .ite (fun _ _ => Iff.rfl) (.ite (fun _ _ => Iff.rfl) flagBlind_opConsCancel
      (.ite (fun _ _ => Iff.rfl) flagBlind_opAwaitComplete .id))
      (.ite (fun _ _ => Iff.rfl) (.of_keeps fun _ _ => rfl) .id), fun _ => rfl⟩
  | cexit => exact .stepIf (fun _ _ => Iff.rfl) flagBlind_opConsCancel
  | rbrd => exact .stepIf (fun _ _ => Iff.rfl) (.of_keeps fun _ _ => rfl)
  | cstep =>
    exact .two (fun _ _ => Iff.rfl) (fun _ _ => Iff.rfl)
      ((flagBlind_opNextParts 3).comp (.of_keeps fun _ _ => rfl)) (flagBlind_part .count)
  | rbwin => exact .stepIf (fun _ _ => Iff.rfl) (flagBlind_part .rbwin)
  | window => exact .stepIf (fun _ _ => Iff.rfl) (flagBlind_part .window)
  | fft => exact .two (fun _ _ => Iff.rfl) (fun _ _ => Iff.rfl) (flagBlind_part .fft) (flagBlind_part .fftEnd)
  | bitrev => exact .stepIf (fun _ _ => Iff.rfl) (flagBlind_part .bitrev)
  | twid => exact .stepIf (fun _ _ => Iff.rfl) (flagBlind_part .twid)
  | bfly => exact .two (fun _ _ => Iff.rfl) (fun _ _ => Iff.rfl) (flagBlind_part .bfly) (flagBlind_part .bflyEnd)
  | bfpass => exact .two (fun _ _ => Iff.rfl) (fun _ _ => Iff.rfl) (flagBlind_part .bfpass) (flagBlind_part .bfpassEnd)
  | cmul => exact .two (fun _ _ => Iff.rfl) (fun _ _ => Iff.rfl) (flagBlind_part .product) (flagBlind_part .advance)
  | cadd => exact .stepIf (fun _ _ => Iff.rfl) (flagBlind_part .sum)
  | csub => exact .stepIf (fun _ _ => Iff.rfl) (flagBlind_part .difference)
  | cdivs => exact .stepIf (fun _ _ => Iff.rfl) (flagBlind_part .divide)
  | cabs => exact .stepIf (fun _ _ => Iff.rfl) (flagBlind_part .magnitude)
  | carg => exact .stepIf (fun _ _ => Iff.rfl) (flagBlind_part .carg)
  | acc => exact .stepIf (fun _ _ => Iff.rfl) (flagBlind_part .acc)
  | cchunk => exact .two (fun _ _ => Iff.rfl) (fun _ _ => Iff.rfl) (flagBlind_part .cchunk) (flagBlind_part .cchunkEnd)
  | ccol => exact .stepIf (fun _ _ => Iff.rfl) (flagBlind_part .ccol)

/-- Settles O52: every operation but an accepted START carries FLAGS on, and every one is an update that reads none. -/
theorem flagsStickyAndNeverRead : Obligations.FlagsStickyAndNeverRead := by
  refine ⟨fun i s t hexec hstart => ?_, fun i s t f hexec => ?_⟩
  · rcases carries_of_exec hexec with hcarries | ⟨rfl, hidle, -⟩
    · exact hcarries.flags
    · exact absurd hidle (hstart.resolve_left fun hne => hne rfl)
  · obtain ⟨a, ha, heq⟩ := flagBlind_exec i
    obtain ⟨g, hg⟩ := ha s f
    rw [heq] at hexec ⊢
    exact ⟨g, by rw [hg, Host.Outcome.next.inj hexec]⟩

end Sys2Proof.Machine
end

section
/-! PROOFS. The edges of the three state registers (R26, R27) and the exit codes (R38). Each agent's register moves by the
agent's own operations, by START and JOIN, and by a STOP that finishes a step under way (log entry 3). -/

namespace Sys2Proof.Machine

variable {s t : State} {i : Instr}

/-! ## The edges (R27) -/

def supEdges : List (Instr × SState × SState) :=
  [(.start, .idle, .run), (.stop, .run, .stopping), (.expire, .stopping, .aborting), (.join, .stopping, .idle),
   (.join, .aborting, .idle)]

def prodEdges : List (Instr × PState × PState) :=
  [(.start, .idle, .run), (.pstep, .run, .sigWait), (.stop, .run, .sigWait), (.peos, .run, .sigWaitLast),
   (.peos, .run, .sigWaitEnd), (.signal, .sigWait, .run), (.signal, .sigWaitLast, .sigWaitEnd),
   (.signal, .sigWaitEnd, .exit), (.signal, .sigWait, .exit), (.signal, .sigWaitLast, .exit), (.pfail, .run, .exit),
   (.pexit, .run, .exit), (.pexit, .sigWait, .exit), (.pexit, .sigWaitLast, .exit), (.pexit, .sigWaitEnd, .exit),
   (.join, .exit, .idle)]

def consEdges : List (Instr × CState × CState) :=
  [(.start, .idle, .drain), (.await, .drain, .await), (.await, .await, .drain), (.await, .await, .exit),
   (.cstep, .drain, .exit), (.ccol, .drain, .exit), (.stop, .drain, .exit), (.cexit, .drain, .exit),
   (.cexit, .await, .exit), (.join, .exit, .idle)]

/-- A move between two named states, by an edge of the list. -/
theorem edge_mem {α : Type} {l : List (Instr × α × α)} {a b : α} (p q : α) (ha : a = p) (hb : b = q)
    (h : (i, p, q) ∈ l) : (i, a, b) ∈ l := by
  rw [ha, hb]; exact h

/-! ## SUP -/

/-- R27's edges of SUP: START, STOP, EXPIRE and JOIN move its state, and nothing else does. -/
theorem sstate_moves (h : OpTaken s i t) :
    t.sup.sstate = s.sup.sstate ∨ (i, s.sup.sstate, t.sup.sstate) ∈ supEdges := by
  cases h with
  | started hidle => exact .inr (edge_mem .idle .run hidle rfl (by decide))
  | stop hrun => exact .inr (edge_mem .run .stopping hrun rfl (by decide))
  | expire hdue => exact .inr (edge_mem .stopping .aborting hdue.1 rfl (by decide))
  | join hdue =>
    rcases hdue.1 with hsup | hsup
    · exact .inr (edge_mem .stopping .idle hsup rfl (by decide))
    · exact .inr (edge_mem .aborting .idle hsup rfl (by decide))
  | pfetch => exact .inl (congrArg Supervisor.sstate (prodOnly_opPfetch s).sup)
  | pdecode => exact .inl (congrArg Supervisor.sstate (prodOnly_opPdecode s).sup)
  | pstep => exact .inl (congrArg Supervisor.sstate (prodOnly_opPstep s).sup)
  | pstepEnd => exact .inl (congrArg Supervisor.sstate (prodOnly_opCountFrame s).sup)
  | peos => exact .inl (congrArg Supervisor.sstate (prodOnly_opPeos s).sup)
  | pexit | signalCancel => exact .inl (congrArg Supervisor.sstate (prodOnly_opProdCancel s).sup)
  | signalComplete => exact .inl (congrArg Supervisor.sstate (prodOnly_opSignalComplete s).sup)
  | awaitCancel | cexit => exact .inl (congrArg Supervisor.sstate (consOnly_opConsCancel s).sup)
  | awaitComplete => exact .inl (congrArg Supervisor.sstate (consOnly_opAwaitComplete s).sup)
  | cstep => exact .inl (congrArg Supervisor.sstate (consOnly_opCstep s).sup)
  | part p => exact .inl (congrArg Supervisor.sstate (consOnly_part s p).sup)
  | busy | configError | openFailure | rbwr | pfail | awaitEnter | rbrd => exact .inl rfl

/-! ## PROD -/

/-- PROD's state moves along an edge, and its exit code holds until START. -/
def ProdMoves (i : Instr) (s t : State) : Prop :=
  (t.prod.pstate = s.prod.pstate ∨ (i, s.prod.pstate, t.prod.pstate) ∈ prodEdges) ∧
  (i ≠ .start → s.prod.pexit ≠ .none → t.prod.pexit = s.prod.pexit)

/-- An operation that leaves the two registers alone. -/
theorem prodMoves_of_kept (hstate : t.prod.pstate = s.prod.pstate) (hcode : t.prod.pexit = s.prod.pexit) :
    ProdMoves i s t := ⟨.inl hstate, fun _ _ => hcode⟩

theorem prodMoves_of_prod (h : t.prod = s.prod) : ProdMoves i s t :=
  prodMoves_of_kept (congrArg Producer.pstate h) (congrArg Producer.pexit h)

/-- PROD in its loop or in a wait has no exit code to keep (R38). -/
theorem prodMoves_of_live (hinv : Inv s) (p q : PState) (hfrom : s.prod.pstate = p)
    (hto : t.prod.pstate = p ∨ t.prod.pstate = q) (hedge : (i, p, q) ∈ prodEdges)
    (hwork : p.AtWork) : ProdMoves i s t := by
  refine ⟨?_, fun _ hcode => absurd (hinv.pexit_none (hfrom ▸ hwork)) hcode⟩
  rcases hto with hstays | hmoves
  · exact .inl (hstays.trans hfrom.symm)
  · exact .inr (edge_mem p q hfrom hmoves hedge)

theorem prodMoves_of_run (hinv : Inv s) (q : PState) (hrun : s.prod.pstate = .run)
    (hto : t.prod.pstate = .run ∨ t.prod.pstate = q) (hedge : (i, .run, q) ∈ prodEdges) : ProdMoves i s t :=
  prodMoves_of_live hinv .run q hrun hto hedge ⟨nofun, nofun⟩

/-- The cadence test: on in the loop, or a full batch asks for a publication (R205). -/
theorem opCountFrame_pstate (hrun : s.prod.pstate = .run) :
    (opCountFrame s).prod.pstate = .run ∨ (opCountFrame s).prod.pstate = .sigWait := by
  rw [opCountFrame_eq]
  show (if _ then _ else _ : Producer).pstate = _ ∨ (if _ then _ else _ : Producer).pstate = _
  split
  · exact .inr rfl
  · exact .inl hrun

theorem opPdecode_pstate (s : State) : (opPdecode s).prod.pstate = s.prod.pstate := by
  unfold opPdecode
  split <;> rfl

/-- A STOP leaves PROD in its loop or with a full batch to publish, where it finds a PSTEP under way. -/
theorem opFinishProd_pstate (hrun : s.prod.pstate = .run) :
    (opFinishProd s).prod.pstate = .run ∨ (opFinishProd s).prod.pstate = .sigWait := by
  unfold opFinishProd
  split
  · exact .inl hrun
  · exact opCountFrame_pstate (s := opRbwr s) hrun
  · exact opCountFrame_pstate hrun

theorem prod_opFinish (s : State) : (opFinish s).prod = (opFinishProd s).prod := (consOnly_opFinishCons _).prod

theorem prod_opFinish_of_none (h : s.prod.part = .none) : (opFinish s).prod = s.prod := by
  rw [prod_opFinish, opFinishProd_of_none s h]

theorem opProdCancel_pstate (s : State) : (opProdCancel s).prod.pstate = .exit := by rw [opProdCancel_eq]

/-- A cancelled PROD leaves its wait for its exit (R186, R209). -/
theorem prodMoves_of_cancelledWait (hinv : Inv s) (hwaits : prodWaits s) (hi : i = .pexit ∨ i = .signal) :
    ProdMoves i s (opProdCancel s) := by
  have hto {p : PState} : (opProdCancel s).prod.pstate = p ∨ (opProdCancel s).prod.pstate = .exit :=
    .inr (opProdCancel_pstate s)
  rcases hwaits with hwait | hwait | hwait
  · exact prodMoves_of_live hinv .sigWait .exit hwait hto (by rcases hi with rfl | rfl <;> decide) ⟨nofun, nofun⟩
  · exact prodMoves_of_live hinv .sigWaitLast .exit hwait hto (by rcases hi with rfl | rfl <;> decide) ⟨nofun, nofun⟩
  · exact prodMoves_of_live hinv .sigWaitEnd .exit hwait hto (by rcases hi with rfl | rfl <;> decide) ⟨nofun, nofun⟩

theorem prodMoves_of_complete (hinv : Inv s) (hwaits : prodWaits s) : ProdMoves .signal s (opSignalComplete s) := by
  obtain ⟨pp, px, ps, heq, ⟨hwait, -, -, rfl⟩ | ⟨hwait, -, -, rfl⟩ | ⟨hwait, -, -, rfl⟩⟩ :=
    opSignalComplete_cases s hwaits
  · exact prodMoves_of_live hinv .sigWait .run hwait (.inr (by rw [heq])) (by decide) ⟨nofun, nofun⟩
  · exact prodMoves_of_live hinv .sigWaitLast .sigWaitEnd hwait (.inr (by rw [heq])) (by decide) ⟨nofun, nofun⟩
  · exact prodMoves_of_live hinv .sigWaitEnd .exit hwait (.inr (by rw [heq])) (by decide) ⟨nofun, nofun⟩

theorem prodMoves_of_peos (hinv : Inv s) (hrun : s.prod.pstate = .run) : ProdMoves .peos s (opPeos s) := by
  unfold opPeos
  split
  · exact prodMoves_of_run hinv .sigWaitLast hrun (.inr rfl) (by decide)
  · exact prodMoves_of_run hinv .sigWaitEnd hrun (.inr rfl) (by decide)

/-- A STOP moves PROD only where a PSTEP is under way (log entry 3). -/
theorem prodMoves_of_stop (hinv : Inv s) (x : Supervisor) : ProdMoves .stop s ((opFinish s).setSup x) := by
  by_cases hpart : s.prod.part = .none
  · exact prodMoves_of_prod (prod_opFinish_of_none hpart)
  · have hrun := (hinv.prodPart hpart).1.1
    refine prodMoves_of_run hinv .sigWait hrun ?_ (by decide)
    rw [setSup_prod, prod_opFinish]
    exact opFinishProd_pstate hrun

/-- R27's edges of PROD, and its exit code (R38). -/
theorem pstate_moves (hinv : Inv s) (h : OpTaken s i t) : ProdMoves i s t := by
  cases h with
  | started hidle =>
    exact ⟨.inr (edge_mem .idle .run (hinv.prodIdle.2 hidle) rfl (by decide)), fun hne => absurd rfl hne⟩
  | stop => exact prodMoves_of_stop hinv _
  | join hdue => exact ⟨.inr (edge_mem .exit .idle hdue.2.1 rfl (by decide)), fun _ _ => rfl⟩
  | pfetch =>
    obtain heq | ⟨a, src, -, heq⟩ := opPfetch_cases s <;> rw [heq]
    · exact prodMoves_of_prod rfl
    · exact prodMoves_of_kept rfl rfl
  | pdecode hdue =>
    obtain ⟨f, hf⟩ := hasFrame_iff.1 hdue.2
    rw [opPdecode_of_frame s hf]; exact prodMoves_of_kept rfl rfl
  | pstep hdue =>
    exact prodMoves_of_run hinv .sigWait hdue.1.1.1
      (opCountFrame_pstate (s := opRbwr (opPdecode s)) ((opPdecode_pstate s).trans hdue.1.1.1)) (by decide)
  | pstepEnd hdue => exact prodMoves_of_run hinv .sigWait hdue.1.1 (opCountFrame_pstate hdue.1.1) (by decide)
  | peos hdue => exact prodMoves_of_peos hinv hdue.1.1.1
  | pfail hdue => exact prodMoves_of_run hinv .exit hdue.1.1.1 (.inr rfl) (by decide)
  | pexit hdue =>
    rcases hdue.1 with hrun | hwaits
    · exact prodMoves_of_run hinv .exit hrun (.inr (opProdCancel_pstate s)) (by decide)
    · exact prodMoves_of_cancelledWait hinv hwaits (.inl rfl)
  | signalCancel hwaits => exact prodMoves_of_cancelledWait hinv hwaits (.inr rfl)
  | signalComplete hwaits => exact prodMoves_of_complete hinv hwaits
  | awaitCancel | cexit => exact prodMoves_of_prod (consOnly_opConsCancel s).prod
  | awaitComplete => exact prodMoves_of_prod (consOnly_opAwaitComplete s).prod
  | cstep => exact prodMoves_of_prod (consOnly_opCstep s).prod
  | part p => exact prodMoves_of_prod (consOnly_part s p).prod
  | busy | configError | openFailure | expire | rbwr | awaitEnter | rbrd => exact prodMoves_of_kept rfl rfl

/-! ## CONS -/

/-- CONS's state moves along an edge, and its exit code holds until START. -/
def ConsMoves (i : Instr) (s t : State) : Prop :=
  (t.cons.cstate = s.cons.cstate ∨ (i, s.cons.cstate, t.cons.cstate) ∈ consEdges) ∧
  (i ≠ .start → s.cons.cexit ≠ .none → t.cons.cexit = s.cons.cexit)

/-- An operation that leaves the two registers alone. -/
theorem consMoves_of_kept (hstate : t.cons.cstate = s.cons.cstate) (hcode : t.cons.cexit = s.cons.cexit) :
    ConsMoves i s t := ⟨.inl hstate, fun _ _ => hcode⟩

theorem consMoves_of_cons (h : t.cons = s.cons) : ConsMoves i s t :=
  consMoves_of_kept (congrArg Consumer.cstate h) (congrArg Consumer.cexit h)

/-- CONS draining or waiting has no exit code to keep (R38). -/
theorem consMoves_of_live (hinv : Inv s) (p q : CState) (hfrom : s.cons.cstate = p)
    (hto : t.cons.cstate = p ∨ t.cons.cstate = q) (hedge : (i, p, q) ∈ consEdges)
    (hwork : p.AtWork) : ConsMoves i s t := by
  refine ⟨?_, fun _ hcode => absurd (hinv.cexit_none (hfrom ▸ hwork)) hcode⟩
  rcases hto with hstays | hmoves
  · exact .inl (hstays.trans hfrom.symm)
  · exact .inr (edge_mem p q hfrom hmoves hedge)

theorem consMoves_of_await (hinv : Inv s) (q : CState) (hawait : s.cons.cstate = .await) (hto : t.cons.cstate = q)
    (hedge : (i, .await, q) ∈ consEdges) : ConsMoves i s t :=
  consMoves_of_live hinv .await q hawait (.inr hto) hedge ⟨nofun, nofun⟩

/-- CONS stays where it is, or exits. -/
def StaysOrExits (s t : State) : Prop := t.cons.cstate = s.cons.cstate ∨ t.cons.cstate = .exit

theorem StaysOrExits.trans {u : State} (h : StaysOrExits s t) (h' : StaysOrExits t u) : StaysOrExits s u := by
  rcases h' with hstays | hexits
  · exact h.imp hstays.trans hstays.trans
  · exact .inr hexits

/-- CCOL, and of the parts of a CSTEP it alone, ends CONS's work (R230). -/
theorem staysOrExits_opCcol (s : State) : StaysOrExits s (opCcol s) := by
  have hcolumn : (opColumn s).cons = s.cons := by rw [opColumn_eq]
  have hemit (u : State) : (opEmit u).cons.cstate = u.cons.cstate := by rw [opEmit_eq]; split <;> rfl
  have hclose (u : State) : StaysOrExits u (opCloseColumn u) := by
    rw [opCloseColumn_eq]
    show (if _ then _ else _ : Consumer).cstate = _ ∨ (if _ then _ else _ : Consumer).cstate = _
    split
    · exact .inr rfl
    · exact .inl rfl
  exact StaysOrExits.trans (.inl ((hemit _).trans (congrArg Consumer.cstate hcolumn))) (hclose _)

theorem consKept_of_part {p : CstepPart} (hp : p ≠ .ccol) :
    (p.effect s).cons.cstate = s.cons.cstate ∧ (p.effect s).cons.cexit = s.cons.cexit := by
  cases p with
  | ccol => exact absurd rfl hp
  | cchunk =>
    show (opChunkDone (opCchunk s)).cons.cstate = _ ∧ (opChunkDone (opCchunk s)).cons.cexit = _
    rw [opCchunk_eq]; exact ⟨rfl, rfl⟩
  | advance =>
    show (opAdvance s).cons.cstate = _ ∧ (opAdvance s).cons.cexit = _
    rw [opAdvance_eq]; exact ⟨rfl, rfl⟩
  | _ => exact ⟨rfl, rfl⟩

theorem staysOrExits_part (s : State) (p : CstepPart) : StaysOrExits s (p.effect s) := by
  by_cases hp : p = .ccol
  · rw [hp]; exact staysOrExits_opCcol s
  · exact .inl (consKept_of_part hp).1

theorem staysOrExits_opNextParts (n : Nat) (s : State) : StaysOrExits s (opNextParts n s) :=
  opNextParts_keeps (R := StaysOrExits) (fun _ => .inl rfl) StaysOrExits.trans staysOrExits_part n s

theorem staysOrExits_opFinish (s : State) : StaysOrExits s (opFinish s) := by
  refine StaysOrExits.trans (.inl (congrArg Consumer.cstate (prodOnly_opFinishProd s).cons)) ?_
  show StaysOrExits _ (opFinishCons (opFinishProd s))
  rw [opFinishCons_eq]
  exact staysOrExits_opNextParts _ _

theorem cons_opFinish_of_none (h : s.cons.part = .none) : (opFinish s).cons = s.cons := by
  rw [opFinish, opFinishCons_of_none _ (by rw [(prodOnly_opFinishProd s).cons]; exact h), (prodOnly_opFinishProd s).cons]

theorem opConsCancel_cstate (s : State) : (opConsCancel s).cons.cstate = .exit := by rw [opConsCancel_eq]

/-- CONS at work stays draining or exits. -/
theorem consMoves_of_work (hinv : Inv s) (hdrain : s.cons.cstate = .drain) (ht : StaysOrExits s t)
    (hedge : (i, .drain, .exit) ∈ consEdges) : ConsMoves i s t :=
  consMoves_of_live hinv .drain .exit hdrain (ht.imp_left fun hstays => hstays.trans hdrain) hedge ⟨nofun, nofun⟩

/-- A STOP moves CONS only where a CSTEP is under way (log entry 3). -/
theorem consMoves_of_stop (hinv : Inv s) (x : Supervisor) : ConsMoves .stop s ((opFinish s).setSup x) := by
  by_cases hpart : s.cons.part = .none
  · exact consMoves_of_cons (cons_opFinish_of_none hpart)
  · exact consMoves_of_work hinv (hinv.consPart hpart).1.1 (staysOrExits_opFinish s) (by decide)

theorem consMoves_of_awaitComplete (hinv : Inv s) (hawait : s.cons.cstate = .await) :
    ConsMoves .await s (opAwaitComplete s) := by
  unfold opAwaitComplete
  split
  · exact consMoves_of_await hinv .exit hawait rfl (by decide)
  · exact consMoves_of_await hinv .drain hawait rfl (by decide)

/-- R27's edges of CONS, and its exit code (R38). -/
theorem cstate_moves (hinv : Inv s) (h : OpTaken s i t) : ConsMoves i s t := by
  cases h with
  | started hidle =>
    exact ⟨.inr (edge_mem .idle .drain (hinv.consIdle.2 hidle) rfl (by decide)), fun hne => absurd rfl hne⟩
  | stop => exact consMoves_of_stop hinv _
  | join hdue => exact ⟨.inr (edge_mem .exit .idle hdue.2.2 rfl (by decide)), fun _ _ => rfl⟩
  | pfetch => exact consMoves_of_cons (prodOnly_opPfetch s).cons
  | pdecode => exact consMoves_of_cons (prodOnly_opPdecode s).cons
  | pstep => exact consMoves_of_cons (prodOnly_opPstep s).cons
  | pstepEnd => exact consMoves_of_cons (prodOnly_opCountFrame s).cons
  | peos => exact consMoves_of_cons (prodOnly_opPeos s).cons
  | pexit | signalCancel => exact consMoves_of_cons (prodOnly_opProdCancel s).cons
  | signalComplete => exact consMoves_of_cons (prodOnly_opSignalComplete s).cons
  | awaitCancel hawait => exact consMoves_of_await hinv .exit hawait (opConsCancel_cstate s) (by decide)
  | awaitComplete hawait => exact consMoves_of_awaitComplete hinv hawait
  | awaitEnter hdue =>
    exact consMoves_of_live hinv .drain .await hdue.1.1.1 (.inr rfl) (by decide) ⟨nofun, nofun⟩
  | cexit hdue =>
    rcases hdue.1 with hdrain | hawait
    · exact consMoves_of_work hinv hdrain (.inr (opConsCancel_cstate s)) (by decide)
    · exact consMoves_of_await hinv .exit hawait (opConsCancel_cstate s) (by decide)
  | cstep hdue =>
    exact consMoves_of_work hinv hdue.1.1.1 (staysOrExits_opNextParts 3 ((opRbrd s).consTo .taken)) (by decide)
  | part p hdue =>
    by_cases hp : p = .ccol
    · subst hp
      exact consMoves_of_work hinv hdue.1.1.1 (staysOrExits_opCcol s) (by decide)
    · exact consMoves_of_kept (consKept_of_part hp).1 (consKept_of_part hp).2
  | busy | configError | openFailure | expire | rbwr | pfail | rbrd => exact consMoves_of_kept rfl rfl

/-! ## The statement -/

/-- Settles O53: an operation that is taken moves each register along its edges; a STOP moves PROD's or CONS's only where
a step of theirs is under way. -/
theorem agentsMoveAlongListedEdges : Obligations.AgentsMoveAlongListedEdges := by
  intro i s t hinv hexec
  rcases exec_cases hexec with rfl | htaken
  · exact ⟨.inl rfl, .inl rfl, .inl rfl, fun _ => ⟨fun _ => rfl, fun _ => rfl⟩, fun _ _ => rfl, fun _ _ => rfl⟩
  · obtain ⟨hpstate, hpexit⟩ := pstate_moves hinv htaken
    obtain ⟨hcstate, hcexit⟩ := cstate_moves hinv htaken
    refine ⟨sstate_moves htaken, hpstate, hcstate, ?_, hpexit, hcexit⟩
    rintro rfl
    rcases stepIf_cases _ _ hexec with ⟨-, rfl⟩ | ⟨-, rfl⟩
    · exact ⟨fun hpart => congrArg Producer.pstate (prod_opFinish_of_none hpart),
        fun hpart => congrArg Consumer.cstate (cons_opFinish_of_none hpart)⟩
    · exact ⟨fun _ => rfl, fun _ => rfl⟩

end Sys2Proof.Machine
end

section
/-! PROOFS. Power-on (R53, R310), and HOST's port: its writes of the configuration (R29 to R35, R43) and its reads, field by
field (R30 to R42). -/

namespace Sys2Proof.Machine

variable {s : State}

/-! ## Power-on -/

/-- Settles O1: the registers with an index are read one by one; the others read 0. -/
theorem resetState : Obligations.ResetState := by
  refine ⟨fun i => ?_, rfl, rfl, rfl, rfl, rfl, rfl, rfl, rfl, rfl, rfl, rfl, rfl, rfl, rfl, rfl, by decide, by decide⟩
  match i with
  | 0 | 1 | 2 | 3 | 4 | 5 | 6 | 7 | 8 | 9 | 10 | 11 => decide
  | n + 12 => rfl

/-- Settles O2: at power-on nothing is under way, every cursor is 0 and every buffer has its length. -/
theorem resetMeetsInvariant : Obligations.ResetMeetsInvariant := by
  intro p
  have hring := ringLen_pos p
  refine ⟨?_, .inl rfl⟩
  exact
    { ringWf := rfl
      ringBelow := rfl
      wrLt := hring
      runLt := batch_pos p
      rdLt := hring
      idxLt := hring
      limRange := ⟨le_rfl, Int.natCast_pos.2 hring⟩
      prevRange := ⟨le_rfl, Int.natCast_pos.2 hring⟩
      ppendRange := ⟨neg_one_lt_zero.le, Int.natCast_pos.2 hring⟩
      positionRange := ⟨neg_one_lt_zero.le, Int.natCast_pos.2 hring⟩
      cntLt := fun hone _ => hone
      cntLe := fun _ => Nat.zero_le _
      winLen := List.length_replicate
      bufLen := List.length_replicate
      accLen := List.length_replicate
      vLen := List.length_replicate
      outLen := List.length_replicate
      colsLen := nofun
      ncolEq := rfl
      ncolLe := le_rfl
      ncolLt := fun hx => hx.elim nofun nofun
      chxZero := by show layoutChx 0#32 = 0#4; decide
      prodIdle := iff_of_true rfl rfl
      consIdle := iff_of_true rfl rfl
      runningIff := iff_of_false nofun nofun
      latched := fun hx => hx.elim nofun nofun
      timerIff := iff_of_false nofun fun hx => hx.elim nofun nofun
      prodExit := nofun
      prodLive := fun hx => absurd rfl hx
      consExit := nofun
      consLive := fun hx => absurd rfl hx
      prodPart := fun hx => absurd rfl hx
      consPart := fun hx => absurd rfl hx
      chunkDue := nofun
      columnDue := nofun
      binOutside := fun _ => ⟨rfl, rfl⟩
      binInside := ⟨Nat.zero_le _, nofun⟩
      fftOutside := fun hx => absurd rfl hx
      fftPass := nofun
      fftReady := nofun
      fftInside := nofun }

/-! ## Accesses to a register -/

/-- The address of register `ci` (R29). -/
theorem hostIndex_of_le (p : Params) {i : Nat} (h : i ≤ 12) : hostIndex p (p.hostBase + 8 * i) = some i := by
  have hindex : (p.hostBase + 8 * i - p.hostBase) / 8 = i := by omega
  rw [hostIndex, if_pos ⟨by omega, by omega, by omega⟩, hindex]

theorem step_hostWrites {i : Nat} (h : i ≤ 12) (v : BitVec 64) : step (s.hostWrites i v) = writeReg i v s := by
  rw [step, State.hostWrites, takeInput_of_cons _ rfl]
  show hostWrite (s.hw.hostBase + 8 * i) v s = _
  rw [hostWrite, hostIndex_of_le s.hw h]

theorem step_hostReads {i : Nat} (h : i ≤ 12) : step (s.hostReads i) = .next (s.setPort { data := readReg s i }) := by
  rw [step, State.hostReads, takeInput_of_cons _ rfl]
  show hostRead (s.hw.hostBase + 8 * i) s = _
  rw [hostRead, hostIndex_of_le s.hw h]

theorem writeReg_of_config {i : Nat} (hlo : 2 ≤ i) (hhi : i ≤ 5) (v : BitVec 64) :
    writeReg i v s = .next (if s.sup.sstate = .idle then s.setRegs (writeConfig s.regs i v) else raise .busy s) := by
  rw [writeReg, if_neg (by omega), if_pos ⟨hlo, hhi⟩]

theorem writeReg_of_readOnly {i : Nat} (h : i ≤ 1 ∨ (6 ≤ i ∧ i ≤ 11)) (v : BitVec 64) :
    writeReg i v s = .next s := by
  rw [writeReg, if_neg (by omega), if_neg (by omega)]

/-- The stored LAYOUT has every field as it is written (R35). -/
theorem storeLayout_fields (v : BitVec 64) :
    (storeLayout (v.setWidth 32)).extractLsb' 0 28 = v.extractLsb' 0 28 := by
  have hmask : (0x0FFFFFFF#32).extractLsb' 0 28 = BitVec.allOnes 28 := by decide
  rw [storeLayout, BitVec.extractLsb'_and, hmask, BitVec.and_allOnes, BitVec.extractLsb'_setWidth_of_le (by decide)]

/-- Settles O7: a write is decided by the register's index and, of a configuration register, by S_IDLE. -/
theorem configurationWrites : Obligations.ConfigurationWrites := by
  intro s v
  have hconfig {i : Nat} (hlo : 2 ≤ i) (hhi : i ≤ 5) : step (s.hostWrites i v) =
      .next (if s.sup.sstate = .idle then s.setRegs (writeConfig s.regs i v) else raise .busy s) := by
    rw [step_hostWrites (by omega), writeReg_of_config hlo hhi]
  refine ⟨fun hidle => ?_, fun hlive i hlo hhi => ?_, fun i hi => ?_⟩
  · have hstored {i : Nat} (hlo : 2 ≤ i) (hhi : i ≤ 5) :
        step (s.hostWrites i v) = .next (s.setRegs (writeConfig s.regs i v)) := by
      rw [hconfig hlo hhi, if_pos hidle]
    exact ⟨hstored (by omega) (by omega), hstored (by omega) (by omega), hstored (by omega) (by omega),
      storeLayout (v.setWidth 32), hstored (by omega) (by omega), storeLayout_fields v, layoutChx_storeLayout _⟩
  · rw [hconfig hlo hhi, if_neg hlive, raise_busy]
  · rw [step_hostWrites (by omega), writeReg_of_readOnly hi]

/-! ## The fields of the registers -/

theorem readReg_natMod {x n : Nat} (hn : n ≤ 64) : (BitVec.ofNat 64 (x % 2 ^ n)).toNat = x % 2 ^ n := by
  rw [BitVec.toNat_ofNat]
  exact Nat.mod_eq_of_lt ((Nat.mod_lt _ (by positivity)).trans_le (Nat.pow_le_pow_right two_pos hn))

/-- A field of a 32-bit register as HOST reads it (R29). -/
theorem readReg_field (w : BitVec 32) {start len : Nat} (h : start + len ≤ 64) :
    (w.setWidth 64).extractLsb' start len = w.extractLsb' start len := BitVec.extractLsb'_setWidth_of_le h

theorem readReg_bit (w : BitVec 32) {i : Nat} (h : i < 64) : (w.setWidth 64).getLsbD i = w.getLsbD i := by
  rw [BitVec.getLsbD_setWidth, decide_eq_true h, Bool.true_and]

/-- LAYOUT as HOST reads it (R35). -/
theorem readReg_layout (s : State) :
    (readReg s 5).extractLsb' 0 3 = (latchCfg s.regs).bps ∧ (readReg s 5).getLsbD 3 = (latchCfg s.regs).be ∧
    (readReg s 5).extractLsb' 4 8 = (latchCfg s.regs).nch ∧
    (readReg s 5).extractLsb' 12 16 = (latchCfg s.regs).bpf ∧ (Inv s → (readReg s 5).extractLsb' 28 4 = 0#4) :=
  ⟨readReg_field _ (by decide), readReg_bit _ (by decide), readReg_field _ (by decide), readReg_field _ (by decide),
    fun hinv => (readReg_field _ (by decide)).trans hinv.chxZero⟩

/-- POSITION as HOST reads it (R36). -/
theorem readReg_position_sentinel (h : s.hand.position = -1) : readReg s 6 = 0xFFFFFFFF#64 := by
  show (BitVec.ofInt 32 s.hand.position).setWidth 64 = _
  rw [h]
  decide

theorem readReg_position {n : Nat} (h : s.hand.position = n) (hn : n < 2 ^ 32) : (readReg s 6).toNat = n := by
  show ((BitVec.ofInt 32 s.hand.position).setWidth 64).toNat = n
  rw [h, BitVec.ofInt_natCast, BitVec.toNat_setWidth, BitVec.toNat_ofNat, Nat.mod_eq_of_lt hn,
    Nat.mod_eq_of_lt (hn.trans (by decide))]

/-- HSTAT's four bits (R37). -/
theorem hstat_bits (a b c d : Bool) :
    let w := (BitVec.ofNat 32 (a.toNat + b.toNat * 2 + c.toNat * 4 + d.toNat * 8)).setWidth 64
    w.getLsbD 0 = a ∧ w.getLsbD 1 = b ∧ w.getLsbD 2 = c ∧ w.getLsbD 3 = d ∧ w.extractLsb' 4 60 = 0#60 := by
  revert a b c d
  decide

/-- FLAGS' six bits (R39). -/
theorem flags_bits (a b c d e f : Bool) :
    let w := (BitVec.ofNat 32
      (a.toNat + b.toNat * 2 + c.toNat * 4 + d.toNat * 8 + e.toNat * 16 + f.toNat * 32)).setWidth 64
    w.getLsbD 0 = a ∧ w.getLsbD 1 = b ∧ w.getLsbD 2 = c ∧ w.getLsbD 3 = d ∧ w.getLsbD 4 = e ∧ w.getLsbD 5 = f ∧
      w.extractLsb' 6 58 = 0#58 := by
  revert a b c d e f
  decide

theorem SState.code_lt (x : SState) : x.code < 4 := by cases x <;> decide
theorem PState.code_lt (x : PState) : x.code < 6 := by cases x <;> decide
theorem CState.code_lt (x : CState) : x.code < 4 := by cases x <;> decide
theorem PExit.code_lt (x : PExit) : x.code < 5 := by cases x <;> decide
theorem CExit.code_lt (x : CExit) : x.code < 5 := by cases x <;> decide

/-- A word of five fields of three bits, four bits apart, as STATUS is (R38). -/
theorem status_fields {a b c d e : Nat} (ha : a < 8) (hb : b < 8) (hc : c < 8) (hd : d < 8) (he : e < 8) :
    let w := (BitVec.ofNat 32 (a + b * 2 ^ 4 + c * 2 ^ 8 + d * 2 ^ 12 + e * 2 ^ 16)).setWidth 64
    (w.extractLsb' 0 3).toNat = a ∧ (w.extractLsb' 4 3).toNat = b ∧ (w.extractLsb' 8 3).toNat = c ∧
    (w.extractLsb' 12 3).toNat = d ∧ (w.extractLsb' 16 3).toNat = e ∧
    ∀ i, i = 3 ∨ i = 7 ∨ i = 11 ∨ i = 15 ∨ 19 ≤ i → w.getLsbD i = false := by
  intro w
  have hw : w.toNat = a + b * 2 ^ 4 + c * 2 ^ 8 + d * 2 ^ 12 + e * 2 ^ 16 := by
    rw [BitVec.toNat_setWidth, BitVec.toNat_ofNat]
    omega
  have hfield (k : Nat) : (w.extractLsb' k 3).toNat =
      (a + b * 2 ^ 4 + c * 2 ^ 8 + d * 2 ^ 12 + e * 2 ^ 16) / 2 ^ k % 2 ^ 3 := by
    rw [BitVec.extractLsb'_toNat, Nat.shiftRight_eq_div_pow, hw]
  refine ⟨?_, ?_, ?_, ?_, ?_, fun i hi => ?_⟩
  · rw [hfield]; omega
  · rw [hfield]; omega
  · rw [hfield]; omega
  · rw [hfield]; omega
  · rw [hfield]; omega
  · rw [← BitVec.testBit_toNat, hw]
    rcases hi with rfl | rfl | rfl | rfl | hi
    · rw [Nat.testBit_eq_decide_div_mod_eq]; exact decide_eq_false (by omega)
    · rw [Nat.testBit_eq_decide_div_mod_eq]; exact decide_eq_false (by omega)
    · rw [Nat.testBit_eq_decide_div_mod_eq]; exact decide_eq_false (by omega)
    · rw [Nat.testBit_eq_decide_div_mod_eq]; exact decide_eq_false (by omega)
    · have hlt : a + b * 2 ^ 4 + c * 2 ^ 8 + d * 2 ^ 12 + e * 2 ^ 16 < 2 ^ 19 := by omega
      exact Nat.testBit_lt_two_pow (hlt.trans_le (Nat.pow_le_pow_right two_pos hi))

/-- Settles O8: each register as it is read, those of several fields by the lemma of their word. -/
theorem hostReads : Obligations.HostReads := by
  intro s
  obtain ⟨hbps, hbe, hnch, hbpf, hchx⟩ := readReg_layout s
  obtain ⟨hdone, hrunning, hpabort, hcabort, hhstat⟩ :=
    hstat_bits s.hand.workerDone s.sup.running s.sup.pabort s.sup.cabort
  obtain ⟨hsstate, hpstate, hcstate, hpexit, hcexit, hgaps⟩ := status_fields
    (s.sup.sstate.code_lt.trans (by decide)) (s.prod.pstate.code_lt.trans (by decide))
    (s.cons.cstate.code_lt.trans (by decide)) (s.prod.pexit.code_lt.trans (by decide))
    (s.cons.cexit.code_lt.trans (by decide))
  obtain ⟨hflat, hfail, hbad, hbusy, hcfg, hexpired, hflags⟩ :=
    flags_bits s.flags.flat s.flags.decodeFail s.flags.badCmd s.flags.busy s.flags.cfgErr s.flags.expired
  exact ⟨fun i hi => step_hostReads hi, readReg_natMod (by decide), readReg_natMod (by decide), rfl, rfl, rfl, rfl,
    hbps, hbe, hnch, hbpf, hchx, readReg_position_sentinel, fun n => readReg_position,
    hdone, hrunning, hpabort, hcabort, hhstat, hsstate, hpstate, hcstate, hpexit, hcexit, hgaps,
    hflat, hfail, hbad, hbusy, hcfg, hexpired, hflags, readReg_natMod (by decide), BitVec.toNat_ofNat _ _, rfl⟩

end Sys2Proof.Machine
end

section
/-! PROOFS. Distances around the ring (R70, R180, R182): how far one cursor is ahead of another, and when two slots
differ. -/

namespace Sys2Proof.Machine

variable (p : Params) {a b c k : Nat}

theorem ringLen_eq : p.ringLen = 2 * p.batch + p.chunk := by
  unfold Params.ringLen Params.batch
  ring

theorem batch_lt_ringLen : p.batch < p.ringLen := by
  have := ringLen_eq p
  have := chunk_pos p
  omega

/-- Slots less than one turn of the ring apart are different slots. -/
theorem slot_ne_of_lt_turn (hlt : a < b) (hturn : b < a + p.ringLen) : a % p.ringLen ≠ b % p.ringLen := by
  intro heq
  have hdvd : p.ringLen ∣ b - a := (Nat.modEq_iff_dvd' hlt.le).1 heq
  have := Nat.le_of_dvd (by omega) hdvd
  omega

theorem ahead_lt (a b : Nat) : ahead p a b < p.ringLen := Nat.mod_lt _ (ringLen_pos p)

/-- A cursor is where its distance from another one says. -/
theorem add_ahead (ha : a < p.ringLen) (hb : b < p.ringLen) : (a + ahead p a b) % p.ringLen = b := by
  have hsum : a + (b + p.ringLen - a) = b + p.ringLen := by omega
  rw [ahead, Nat.add_mod_mod, hsum, Nat.add_mod_right, Nat.mod_eq_of_lt hb]

/-- A distance less than one turn is the one it is moved by. -/
theorem ahead_add (ha : a < p.ringLen) (hk : k < p.ringLen) : ahead p a ((a + k) % p.ringLen) = k := by
  by_contra hne
  have hslot := add_ahead p ha (Nat.mod_lt (a + k) (ringLen_pos p))
  have hlt := ahead_lt p a ((a + k) % p.ringLen)
  rcases Nat.lt_or_gt_of_ne hne with h | h
  · exact slot_ne_of_lt_turn p (Nat.add_lt_add_left h a) (by omega) hslot
  · exact slot_ne_of_lt_turn p (Nat.add_lt_add_left h a) (by omega) hslot.symm

theorem ahead_self (ha : a < p.ringLen) : ahead p a a = 0 := by
  have h := ahead_add p ha (ringLen_pos p)
  rwa [Nat.add_zero, Nat.mod_eq_of_lt ha] at h

theorem ahead_eq_zero (ha : a < p.ringLen) (hb : b < p.ringLen) : ahead p a b = 0 ↔ b = a := by
  refine ⟨fun h => ?_, by rintro rfl; exact ahead_self p ha⟩
  have hslot := add_ahead p ha hb
  rw [h, Nat.add_zero, Nat.mod_eq_of_lt ha] at hslot
  exact hslot.symm

/-- The cursor ahead moves on by one slot. -/
theorem ahead_nextSlot_right (ha : a < p.ringLen) (hb : b < p.ringLen) (hroom : ahead p a b + 1 < p.ringLen) :
    ahead p a (nextSlot p b) = ahead p a b + 1 := by
  have hslot : nextSlot p b = (a + (ahead p a b + 1)) % p.ringLen := by
    rw [nextSlot, ← Nat.add_assoc, ← Nat.mod_add_mod (a + ahead p a b), add_ahead p ha hb]
  rw [hslot, ahead_add p ha hroom]

/-- The cursor behind moves on by one slot. -/
theorem ahead_nextSlot_left (ha : a < p.ringLen) (hb : b < p.ringLen) (hne : b ≠ a) :
    ahead p (nextSlot p a) b + 1 = ahead p a b := by
  have hpos : ahead p a b ≠ 0 := mt (ahead_eq_zero p ha hb).1 hne
  have hlt := ahead_lt p a b
  have hslot : b = (nextSlot p a + (ahead p a b - 1)) % p.ringLen := by
    rw [nextSlot, Nat.mod_add_mod, show a + 1 + (ahead p a b - 1) = a + ahead p a b by omega, add_ahead p ha hb]
  have hahead : ahead p (nextSlot p a) b = ahead p a b - 1 := by
    conv_lhs => rw [hslot]
    exact ahead_add p (nextSlot_lt p a) (by omega)
  omega

/-- Two distances in a row are a distance, as far as they stay within one turn. -/
theorem ahead_add_ahead (ha : a < p.ringLen) (hb : b < p.ringLen) (hc : c < p.ringLen)
    (hturn : ahead p a b + ahead p b c < p.ringLen) : ahead p a c = ahead p a b + ahead p b c := by
  have hslot : c = (a + (ahead p a b + ahead p b c)) % p.ringLen := by
    rw [← Nat.add_assoc, ← Nat.mod_add_mod, add_ahead p ha hb, add_ahead p hb hc]
  conv_lhs => rw [hslot]
  exact ahead_add p ha hturn

end Sys2Proof.Machine
end

section
/-! PROOFS. The invariant of the handoff (R81, R90, R184 to R191): its clauses state by state, what each agent's steps do to
them, and the bounds of the ring that follow. -/

namespace Sys2Proof.Machine

variable {s t : State} {i : Instr}

/-! ## The clauses, by the state of their agent -/

theorem prodClause_run (h : s.prod.pstate = .run) :
    prodClause s ↔ s.hand.position ≠ -1 ∧ unpublished s = s.prod.run + uncounted s := by
  simp only [prodClause, h]

theorem prodClause_sigWait (h : s.prod.pstate = .sigWait) : prodClause s ↔
    s.hand.position ≠ -1 ∧ s.prod.run = 0 ∧ s.prod.ppend = s.prod.wr ∧ unpublished s = s.hw.batch := by
  simp only [prodClause, h]

theorem prodClause_sigWaitLast (h : s.prod.pstate = .sigWaitLast) : prodClause s ↔
    s.hand.position ≠ -1 ∧ s.prod.run = 0 ∧ s.prod.ppend = s.prod.wr ∧ 0 < unpublished s ∧
      unpublished s < s.hw.batch := by
  simp only [prodClause, h]

theorem prodClause_sigWaitEnd (h : s.prod.pstate = .sigWaitEnd) : prodClause s ↔
    s.hand.position ≠ -1 ∧ s.prod.run = 0 ∧ s.prod.ppend = -1 ∧ unpublished s = 0 := by
  simp only [prodClause, h]

theorem prodClause_eos (h : s.prod.pstate = .exit) (hcode : s.prod.pexit = .eos) :
    prodClause s ↔ s.hand.position = -1 := by
  simp only [prodClause, h, hcode, if_true]

/-- PROD gone before it published the sentinel. -/
theorem prodClause_gone (h : s.prod.pstate = .exit) (hcode : s.prod.pexit ≠ .eos) :
    prodClause s ↔ s.hand.position ≠ -1 ∧ unpublished s ≤ s.hw.batch := by
  simp only [prodClause, h, hcode, if_false]

theorem consClause_drain (h : s.cons.cstate = .drain) : consClause s ↔ drainClause s := by
  simp only [consClause, h]

theorem consClause_await (h : s.cons.cstate = .await) : consClause s ↔ awaitClause s := by
  simp only [consClause, h]

theorem consClause_complete (h : s.cons.cstate = .exit) (hcode : s.cons.cexit = .complete) :
    consClause s ↔ drainClause s := by
  simp only [consClause, h, hcode]

theorem consClause_sentinel (h : s.cons.cstate = .exit) (hcode : s.cons.cexit = .sentinel) :
    consClause s ↔ sentinelClause s := by
  simp only [consClause, h, hcode]

/-- CONS gone on a cancellation. -/
theorem consClause_cancelled (h : s.cons.cstate = .exit) (hcode : s.cons.cexit = .stopped ∨ s.cons.cexit = .aborted) :
    consClause s ↔ drainClause s ∨ awaitClause s := by
  rcases hcode with hcode | hcode <;> simp only [consClause, h, hcode]

/-- In a run CONS drains what it received, or waits with it drained, or has received the sentinel. -/
theorem consClause_cases (hinv : Inv s) (hlive : s.sup.sstate ≠ .idle) (h : consClause s) :
    drainClause s ∨ awaitClause s ∨ sentinelClause s := by
  cases hstate : s.cons.cstate with
  | idle => exact absurd (hinv.consIdle.1 hstate) hlive
  | drain => exact .inl ((consClause_drain hstate).1 h)
  | await => exact .inr (.inl ((consClause_await hstate).1 h))
  | exit =>
    cases hcode : s.cons.cexit with
    | none => exact absurd hcode (hinv.consExit hstate)
    | complete => exact .inl ((consClause_complete hstate hcode).1 h)
    | sentinel => exact .inr (.inr ((consClause_sentinel hstate hcode).1 h))
    | stopped => exact ((consClause_cancelled hstate (.inl hcode)).1 h).imp_right .inl
    | aborted => exact ((consClause_cancelled hstate (.inr hcode)).1 h).imp_right .inl

/-- What the clause of PROD speaks of: PROD's registers and the position. -/
theorem prodClause_congr (hhw : t.hw = s.hw) (hprod : t.prod = s.prod) (hposition : t.hand.position = s.hand.position)
    (h : prodClause s) : prodClause t := by
  unfold prodClause unpublished uncounted at h ⊢
  rw [hhw, hprod, hposition]
  exact h

/-- What the clause of CONS speaks of: CONS's registers and the slot, and the write cursor once the sentinel is
published. -/
theorem consClause_congr (hhw : t.hw = s.hw) (hcons : t.cons = s.cons) (hhand : t.hand = s.hand)
    (hwr : s.hand.position = -1 → t.prod.wr = s.prod.wr) (h : consClause s) : consClause t := by
  unfold consClause drainClause awaitClause sentinelClause unread inHand at h ⊢
  rw [hhw, hcons, hhand]
  by_cases hposition : s.hand.position = -1
  · rw [hwr hposition]; exact h
  · simpa only [hposition, false_and, and_false, false_or] using h

/-! ## What the invariants say in a run -/

theorem HandoffInv.clauses (h : HandoffInv s) (hlive : s.sup.sstate ≠ .idle) : prodClause s ∧ consClause s :=
  h.resolve_left hlive

/-- A published cursor is a slot of the ring (R36). -/
theorem Inv.position_cursor (h : Inv s) (hposition : s.hand.position ≠ -1) :
    s.hand.position.toNat < s.hw.ringLen ∧ (s.hand.position.toNat : Int) = s.hand.position := by
  have := h.positionRange
  omega

theorem Inv.lim_cursor (h : Inv s) : s.cons.lim.toNat < s.hw.ringLen ∧ (s.cons.lim.toNat : Int) = s.cons.lim := by
  have := h.limRange
  omega

theorem unpublished_eq_zero (hinv : Inv s) (hposition : s.hand.position ≠ -1) :
    unpublished s = 0 ↔ (s.prod.wr : Int) = s.hand.position := by
  obtain ⟨hlt, hcast⟩ := hinv.position_cursor hposition
  rw [unpublished, ahead_eq_zero s.hw hlt hinv.wrLt]
  omega

theorem uncounted_of_written (h : s.prod.part = .written) : uncounted s = 1 := if_pos h

theorem uncounted_of_not_written (h : s.prod.part ≠ .written) : uncounted s = 0 := if_neg h

theorem uncounted_le (s : State) : uncounted s ≤ 1 := by
  unfold uncounted
  split <;> omega

theorem inHand_of_none (h : s.cons.part = .none) : inHand s = 0 := if_pos h

theorem inHand_of_part (h : s.cons.part ≠ .none) : inHand s = 1 := if_neg h

theorem inHand_le (s : State) : inHand s ≤ 1 := by
  unfold inHand
  split <;> omega

/-- The samples written, and counted or not, are at most a batch (R90 a). -/
theorem Inv.run_le (h : Inv s) : s.prod.run + uncounted s ≤ s.hw.batch := by
  have := h.runLt
  have := uncounted_le s
  omega

/-- PROD is at most one batch ahead of the position published last (R90 a). -/
theorem unpublished_le (hinv : Inv s) (hlive : s.sup.sstate ≠ .idle) (h : prodClause s)
    (hposition : s.hand.position ≠ -1) : unpublished s ≤ s.hw.batch := by
  cases hstate : s.prod.pstate with
  | idle => exact absurd (hinv.prodIdle.1 hstate) hlive
  | run =>
    obtain ⟨-, hrun⟩ := (prodClause_run hstate).1 h
    exact hrun.trans_le hinv.run_le
  | sigWait =>
    obtain ⟨-, -, -, hbatch⟩ := (prodClause_sigWait hstate).1 h
    exact hbatch.le
  | sigWaitLast =>
    obtain ⟨-, -, -, -, hlt⟩ := (prodClause_sigWaitLast hstate).1 h
    exact hlt.le
  | sigWaitEnd =>
    obtain ⟨-, -, -, hzero⟩ := (prodClause_sigWaitEnd hstate).1 h
    exact hzero.trans_le (Nat.zero_le _)
  | exit =>
    by_cases hcode : s.prod.pexit = .eos
    · exact absurd ((prodClause_eos hstate hcode).1 h) hposition
    · exact ((prodClause_gone hstate hcode).1 h).2

/-- What is published and not consumed is at most one batch (R90 b). -/
theorem published_le (hinv : Inv s) (hlive : s.sup.sstate ≠ .idle) (h : consClause s) (hposition : s.hand.position ≠ -1) :
    ahead s.hw s.cons.rd s.hand.position.toNat ≤ s.hw.batch := by
  obtain ⟨hlimLt, hlim⟩ := hinv.lim_cursor
  rcases consClause_cases hinv hlive h with ⟨-, hreceived, hunread⟩ | ⟨hrd, -, hempty, hfull⟩ | ⟨-, hsentinel, -⟩
  · rw [hreceived]
    exact (Nat.le_add_right _ _).trans hunread
  · have hrd' : s.cons.rd = s.cons.lim.toNat := by omega
    rw [hrd']
    cases hdone : s.hand.workerDone with
    | true =>
      rw [hempty hdone, ahead_self s.hw hlimLt]
      exact Nat.zero_le _
    | false => exact ((hfull hdone).resolve_left fun hend => hposition hend.1).2.2
  · exact absurd hsentinel hposition

/-- Once the sentinel is published CONS has drained all that was written (R206). -/
theorem drained_of_sentinel (hinv : Inv s) (hlive : s.sup.sstate ≠ .idle) (h : consClause s)
    (hposition : s.hand.position = -1) : s.cons.rd = s.prod.wr := by
  have hlim := hinv.limRange
  rcases consClause_cases hinv hlive h with ⟨-, hreceived, -⟩ | ⟨hrd, -, hempty, hfull⟩ | ⟨-, -, hrd, hwr⟩
  · omega
  · cases hdone : s.hand.workerDone with
    | true => have := hempty hdone; omega
    | false =>
      obtain ⟨-, hwr⟩ := (hfull hdone).resolve_right fun hnew => hnew.1 hposition
      omega
  · omega

/-- Settles O30: the three bounds are those of PROD's clause, of CONS's clause, and their sum, less than a turn of the
ring. -/
theorem ringBounds : Obligations.RingBounds := by
  intro s hinv hhandoff hlive
  obtain ⟨hprod, hcons⟩ := hhandoff.clauses hlive
  have hbatch := batch_lt_ringLen s.hw
  have hring := ringLen_eq s.hw
  have hchunk := chunk_pos s.hw
  by_cases hposition : s.hand.position = -1
  · have hdrained : ahead s.hw s.cons.rd s.prod.wr = 0 := by
      rw [drained_of_sentinel hinv hlive hcons hposition, ahead_self s.hw hinv.wrLt]
    exact ⟨hinv.run_le, fun hne => absurd hposition hne, fun _ => by omega, by omega⟩
  · obtain ⟨hlt, -⟩ := hinv.position_cursor hposition
    have hwritten : ahead s.hw s.hand.position.toNat s.prod.wr ≤ s.hw.batch :=
      unpublished_le hinv hlive hprod hposition
    have hpublished := published_le hinv hlive hcons hposition
    have hsum := ahead_add_ahead s.hw hinv.rdLt hlt hinv.wrLt (by omega)
    exact ⟨hinv.run_le, fun _ => ⟨hwritten, hpublished⟩, fun heq => absurd heq hposition, by omega⟩

/-! ## PROD's steps -/

/-- A step of PROD that leaves the slot as it is, and the cursor too once the sentinel is published. -/
theorem HandoffInv.prodStep (h : HandoffInv s) (hlive : s.sup.sstate ≠ .idle) (hhw : t.hw = s.hw)
    (hcons : t.cons = s.cons) (hhand : t.hand = s.hand) (hwr : s.hand.position = -1 → t.prod.wr = s.prod.wr)
    (hclause : prodClause s → prodClause t) : HandoffInv t := by
  obtain ⟨hp, hc⟩ := h.clauses hlive
  exact .inr ⟨hclause hp, consClause_congr hhw hcons hhand hwr hc⟩

/-- A step of PROD's loop finds the last position published to be no sentinel. -/
theorem HandoffInv.prodLoopStep (h : HandoffInv s) (hinv : Inv s) (hrun : s.prod.pstate = .run) (hhw : t.hw = s.hw)
    (hcons : t.cons = s.cons) (hhand : t.hand = s.hand)
    (hclause : s.hand.position ≠ -1 → unpublished s = s.prod.run + uncounted s → prodClause t) : HandoffInv t := by
  have hlive := hinv.sup_of_prod (prodAtWork_of_run hrun).1
  obtain ⟨hposition, hcount⟩ := (prodClause_run hrun).1 (h.clauses hlive).1
  exact h.prodStep hlive hhw hcons hhand (fun hend => absurd hend hposition) fun _ => hclause hposition hcount

/-- RBWR's sample is written and not yet counted (R205). -/
theorem HandoffInv.rbwr (h : HandoffInv s) (hinv : Inv s) (hrun : s.prod.pstate = .run) (hpart : s.prod.part ≠ .written) :
    HandoffInv ((opRbwr s).prodTo .written) := by
  refine h.prodLoopStep hinv hrun rfl rfl rfl fun hposition hcount => ?_
  rw [uncounted_of_not_written hpart, Nat.add_zero] at hcount
  obtain ⟨hlt, -⟩ := hinv.position_cursor hposition
  have hroom : unpublished s + 1 < s.hw.ringLen := by
    have := hinv.runLt
    have := batch_lt_ringLen s.hw
    omega
  have hnext := ahead_nextSlot_right s.hw hlt hinv.wrLt hroom
  exact (prodClause_run (s := (opRbwr s).prodTo .written) hrun).2 ⟨hposition, hnext.trans (congrArg (· + 1) hcount)⟩

/-- The cadence test counts the sample written, and a full batch asks for a publication (R205). -/
theorem HandoffInv.countFrame (h : HandoffInv s) (hinv : Inv s) (hrun : s.prod.pstate = .run)
    (hpart : s.prod.part = .written) : HandoffInv (opCountFrame s) := by
  refine h.prodLoopStep hinv hrun (prodOnly_opCountFrame s).hw (prodOnly_opCountFrame s).cons ?_ fun hposition hcount => ?_
  · rw [opCountFrame_eq]
  · rw [uncounted_of_written hpart] at hcount
    unfold opCountFrame
    split
    case isTrue hbatch => exact (prodClause_sigWait rfl).2 ⟨hposition, rfl, rfl, hcount.trans hbatch⟩
    case isFalse =>
      refine (prodClause_run ?_).2 ⟨hposition, ?_⟩
      · exact hrun
      · exact hcount

/-- How far a PSTEP has come is no matter to the cadence test, which ends it. -/
theorem opCountFrame_prodTo (s : State) (p : ProdPart) : opCountFrame (s.prodTo p) = opCountFrame s := by
  rw [opCountFrame_eq, opCountFrame_eq]; rfl

/-- RBWR and the cadence test, which follow one another in a PSTEP (R205). -/
theorem HandoffInv.writeFrame (h : HandoffInv s) (hinv : Inv s) (hworks : prodWorks s) (hframe : hasFrame s = true)
    (hpart : s.prod.part ≠ .written) : HandoffInv (opCountFrame (opRbwr s)) := by
  rw [← opCountFrame_prodTo _ .written]
  exact (h.rbwr hinv hworks.1 hpart).countFrame (hinv.opRbwr.prodTo hworks hframe .written) hworks.1 rfl

/-- A step of the loop that writes no sample leaves the clauses alone (R201, R203). -/
theorem HandoffInv.prodReads (h : HandoffInv s) (hinv : Inv s) (hrun : s.prod.pstate = .run)
    (hpart : s.prod.part ≠ .written) {x : Producer} (y : Source) (hxrun : x.pstate = .run) (hxwr : x.wr = s.prod.wr)
    (hxcount : x.run = s.prod.run) (hxpart : x.part ≠ .written) : HandoffInv { s with prod := x, src := y } := by
  refine h.prodLoopStep hinv hrun rfl rfl rfl fun hposition hcount => (prodClause_run hxrun).2 ⟨hposition, ?_⟩
  rw [uncounted_of_not_written hpart] at hcount
  rw [uncounted_of_not_written hxpart]
  show ahead s.hw s.hand.position.toNat x.wr = x.run + 0
  rw [hxwr, hxcount]
  exact hcount

theorem HandoffInv.opPfetch (h : HandoffInv s) (hinv : Inv s) (hrun : s.prod.pstate = .run)
    (hpart : s.prod.part = .none) : HandoffInv (opPfetch s) := by
  have hpart' : s.prod.part ≠ .written := by rw [hpart]; nofun
  obtain heq | ⟨a, src, -, heq⟩ := opPfetch_cases s
  · rw [heq]; exact h
  · rw [heq]; exact h.prodReads hinv hrun hpart' src hrun rfl rfl hpart'

/-- At the end of the stream the leftover, or else the sentinel, is to be published (R206). -/
theorem HandoffInv.opPeos (h : HandoffInv s) (hinv : Inv s) (hrun : s.prod.pstate = .run) (hpart : s.prod.part = .none) :
    HandoffInv (opPeos s) := by
  refine h.prodLoopStep hinv hrun (prodOnly_opPeos s).hw (prodOnly_opPeos s).cons ?_ fun hposition hcount => ?_
  · rw [opPeos_eq]
  · rw [uncounted_of_not_written (by rw [hpart]; nofun), Nat.add_zero] at hcount
    unfold Machine.opPeos
    split
    case isTrue hleft =>
      exact (prodClause_sigWaitLast rfl).2 ⟨hposition, rfl, rfl, hleft.trans_eq hcount.symm, hcount.trans_lt hinv.runLt⟩
    case isFalse hnone =>
      have hzero : s.prod.run = 0 := Nat.eq_zero_of_not_pos hnone
      exact (prodClause_sigWaitEnd rfl).2 ⟨hposition, hzero, rfl, hcount.trans hzero⟩

/-- PROD gone before the sentinel leaves at most a batch unpublished (R186, R208, R209). -/
theorem HandoffInv.prodGone (h : HandoffInv s) (hinv : Inv s) (hwork : s.prod.pstate.AtWork) {x : PExit} {f : Flags}
    {l : EventLines} (hx : x ≠ .eos) :
    HandoffInv { s with prod := { s.prod with pexit := x, pstate := .exit }, flags := f, lines := l } := by
  have hlive := hinv.sup_of_prod hwork.1
  refine h.prodStep hlive rfl rfl rfl (fun _ => rfl) fun hp => (prodClause_gone rfl hx).2 ?_
  have hposition : s.hand.position ≠ -1 := by
    cases hstate : s.prod.pstate with
    | idle => exact absurd hstate hwork.1
    | exit => exact absurd hstate hwork.2
    | run => exact ((prodClause_run hstate).1 hp).1
    | sigWait => exact ((prodClause_sigWait hstate).1 hp).1
    | sigWaitLast => exact ((prodClause_sigWaitLast hstate).1 hp).1
    | sigWaitEnd => exact ((prodClause_sigWaitEnd hstate).1 hp).1
  have hle := unpublished_le hinv hlive hp hposition
  exact ⟨hposition, hle⟩

theorem HandoffInv.opProdCancel (h : HandoffInv s) (hinv : Inv s) (hwork : s.prod.pstate.AtWork) :
    HandoffInv (opProdCancel s) := by
  rw [opProdCancel_eq]
  exact h.prodGone hinv hwork (by split <;> nofun)

/-- A STOP takes the rest of a PSTEP under way (R329). -/
theorem HandoffInv.opFinishProd (h : HandoffInv s) (hinv : Inv s) : HandoffInv (opFinishProd s) := by
  cases hpart : s.prod.part with
  | none => rw [opFinishProd_of_none s hpart]; exact h
  | decoded =>
    obtain ⟨hworks, hframe⟩ := hinv.prodPart (by rw [hpart]; nofun)
    rw [opFinishProd_of_decoded s hpart]
    exact h.writeFrame hinv hworks hframe (by rw [hpart]; nofun)
  | written =>
    rw [opFinishProd_of_written s hpart]
    exact h.countFrame hinv (hinv.prodPart (by rw [hpart]; nofun)).1.1 hpart

/-! ## The publication -/

/-- Where PROD may publish, CONS has drained what it received, and the slot holds the position it received (R187). -/
theorem awaitClause_of_workerDone (hinv : Inv s) (hlive : s.sup.sstate ≠ .idle) (h : consClause s)
    (hdone : s.hand.workerDone = true) : awaitClause s := by
  have hnot : ¬s.hand.workerDone = false := by rw [hdone]; nofun
  rcases consClause_cases hinv hlive h with hdrain | hawait | hsentinel
  · exact absurd hdrain.1 hnot
  · exact hawait
  · exact absurd hsentinel.1 hnot

/-- CONS waits for a publication, or is gone on a cancellation while it did, and finds the slot filled (R188, R191). -/
theorem consClause_published (hinv : Inv s) (hlive : s.sup.sstate ≠ .idle) (h : consClause s)
    (hdone : s.hand.workerDone = true) (hcons : t.cons = s.cons) (hclause : awaitClause t) :
    consClause t := by
  have hnot : ¬s.hand.workerDone = false := by rw [hdone]; nofun
  cases hstate : s.cons.cstate with
  | idle => exact absurd (hinv.consIdle.1 hstate) hlive
  | drain => exact absurd ((consClause_drain hstate).1 h).1 hnot
  | await => exact (consClause_await (hcons ▸ hstate)).2 hclause
  | exit =>
    cases hcode : s.cons.cexit with
    | none => exact absurd hcode (hinv.consExit hstate)
    | complete => exact absurd ((consClause_complete hstate hcode).1 h).1 hnot
    | sentinel => exact absurd ((consClause_sentinel hstate hcode).1 h).1 hnot
    | stopped => exact (consClause_cancelled (hcons ▸ hstate) (.inl (hcons ▸ hcode))).2 (.inr hclause)
    | aborted => exact (consClause_cancelled (hcons ▸ hstate) (.inr (hcons ▸ hcode))).2 (.inr hclause)

/-- The slot filled with PROD's cursor, which is ahead of the position CONS received (R185, R191). -/
theorem awaitClause_published_cursor (h : awaitClause s) (hdone : s.hand.workerDone = true)
    (hpos : 0 < unpublished s) (hle : unpublished s ≤ s.hw.batch) (hcons : t.cons = s.cons) (hhw : t.hw = s.hw)
    (hhand : t.hand = { position := s.prod.wr, workerDone := false }) : awaitClause t := by
  obtain ⟨hrd, hprev, hempty, -⟩ := h
  have hahead : ahead s.hw s.cons.lim.toNat s.prod.wr = unpublished s := by rw [unpublished, hempty hdone]
  unfold awaitClause
  rw [hcons, hhw, hhand]
  exact ⟨hrd, hprev, nofun, fun _ => .inr ⟨by simp only; omega, hahead ▸ hpos, hahead ▸ hle⟩⟩

/-- The slot filled with the sentinel, with nothing left to publish (R206). -/
theorem awaitClause_published_sentinel (hinv : Inv s) (h : awaitClause s) (hdone : s.hand.workerDone = true)
    (hposition : s.hand.position ≠ -1) (hzero : unpublished s = 0) (hcons : t.cons = s.cons) (hwr : t.prod.wr = s.prod.wr)
    (hhand : t.hand = { position := -1, workerDone := false }) : awaitClause t := by
  obtain ⟨hrd, hprev, hempty, -⟩ := h
  unfold awaitClause
  rw [hcons, hwr, hhand]
  refine ⟨hrd, hprev, nofun, fun _ => .inl ⟨rfl, ?_⟩⟩
  rw [(unpublished_eq_zero hinv hposition).1 hzero, hempty hdone]

/-- A publication, by the wait that it ends (R185). -/
theorem HandoffInv.opSignalComplete (h : HandoffInv s) (hinv : Inv s) (hwaits : prodWaits s)
    (hdone : s.hand.workerDone = true) : HandoffInv (opSignalComplete s) := by
  have hlive := hinv.sup_of_prod (prodAtWork_of_waits hwaits).1
  obtain ⟨hp, hc⟩ := h.clauses hlive
  have hawait := awaitClause_of_workerDone hinv hlive hc hdone
  have hpart := hinv.prodPart_none (not_prodWorks_of_waits hwaits)
  have hcursor : ((s.prod.wr : Int)) ≠ -1 := by omega
  have hfresh : ahead s.hw (s.prod.wr : Int).toNat s.prod.wr = 0 := ahead_self s.hw hinv.wrLt
  obtain ⟨pp, px, ps, heq, ⟨hwait, rfl, rfl, rfl⟩ | ⟨hwait, rfl, rfl, rfl⟩ | ⟨hwait, rfl, rfl, rfl⟩⟩ :=
    opSignalComplete_cases s hwaits
  all_goals rw [heq]
  · obtain ⟨-, hrun, hppend, hbatch⟩ := (prodClause_sigWait hwait).1 hp
    have hclause {t : State} := awaitClause_published_cursor (t := t) hawait hdone (hbatch ▸ batch_pos s.hw) hbatch.le
    refine .inr ⟨(prodClause_run rfl).2 ?_, consClause_published hinv hlive hc hdone rfl (hclause rfl rfl ?_)⟩
    · rw [uncounted_of_not_written (by show s.prod.part ≠ _; rw [hpart]; nofun)]
      show s.prod.ppend ≠ -1 ∧ ahead s.hw s.prod.ppend.toNat s.prod.wr = s.prod.run + 0
      rw [hppend, hrun]
      exact ⟨hcursor, hfresh⟩
    · rw [hppend]
  · obtain ⟨-, hrun, hppend, hpos, hlt⟩ := (prodClause_sigWaitLast hwait).1 hp
    have hclause {t : State} := awaitClause_published_cursor (t := t) hawait hdone hpos hlt.le
    refine .inr ⟨(prodClause_sigWaitEnd rfl).2 ?_, consClause_published hinv hlive hc hdone rfl (hclause rfl rfl ?_)⟩
    · show s.prod.ppend ≠ -1 ∧ s.prod.run = 0 ∧ _ ∧ ahead s.hw s.prod.ppend.toNat s.prod.wr = 0
      rw [hppend]
      exact ⟨hcursor, hrun, rfl, hfresh⟩
    · rw [hppend]
  · obtain ⟨hposition, -, hppend, hzero⟩ := (prodClause_sigWaitEnd hwait).1 hp
    have hclause {t : State} := awaitClause_published_sentinel (t := t) hinv hawait hdone hposition hzero
    refine .inr ⟨(prodClause_eos rfl rfl).2 hppend, consClause_published hinv hlive hc hdone rfl (hclause rfl rfl ?_)⟩
    rw [hppend]

/-! ## CONS's steps -/

/-- A step of CONS that leaves PROD's registers and the position. -/
theorem HandoffInv.consStep (h : HandoffInv s) (hlive : s.sup.sstate ≠ .idle) (hhw : t.hw = s.hw)
    (hprod : t.prod = s.prod) (hposition : t.hand.position = s.hand.position)
    (hclause : consClause s → consClause t) : HandoffInv t := by
  obtain ⟨hp, hc⟩ := h.clauses hlive
  exact .inr ⟨prodClause_congr hhw hprod hposition hp, hclause hc⟩

/-- AWAIT entry: what was received is drained, and the slot is free (R187). -/
theorem HandoffInv.opAwaitEnter (h : HandoffInv s) (hinv : Inv s) (hdrain : s.cons.cstate = .drain)
    (hrd : (s.cons.rd : Int) = s.cons.lim) : HandoffInv (opAwaitEnter s) := by
  refine h.consStep (hinv.sup_of_cons (by rw [hdrain]; nofun)) rfl rfl rfl fun hc => (consClause_await rfl).2 ?_
  obtain ⟨-, hreceived, -⟩ := (consClause_drain hdrain).1 hc
  exact ⟨hrd, rfl, fun _ => hreceived, nofun⟩

/-- AWAIT completion: the new position is received, or the sentinel is (R188). -/
theorem HandoffInv.opAwaitComplete (h : HandoffInv s) (hinv : Inv s) (hawait : s.cons.cstate = .await)
    (hnew : s.hand.position ≠ s.cons.prev) : HandoffInv (opAwaitComplete s) := by
  have honly := consOnly_opAwaitComplete s
  refine h.consStep (hinv.sup_of_cons (by rw [hawait]; nofun)) honly.hw honly.prod (congrArg _ honly.hand) fun hc => ?_
  obtain ⟨hrd, hprev, hempty, hfull⟩ := (consClause_await hawait).1 hc
  have hdone : s.hand.workerDone = false := Bool.eq_false_iff.2 fun hdone => hnew ((hempty hdone).trans hprev.symm)
  have hpart : s.cons.part = .none := hinv.consPart_none fun hworks => absurd (hawait.symm.trans hworks.1) nofun
  unfold Machine.opAwaitComplete
  split
  case isTrue hend =>
    have hwr := ((hfull hdone).resolve_right fun hcursor => hcursor.1 hend).2
    exact (consClause_sentinel rfl rfl).2 ⟨hdone, hend, hrd, hwr⟩
  case isFalse hcursor =>
    obtain ⟨-, -, hle⟩ := (hfull hdone).resolve_left fun hend => hcursor hend.1
    refine (consClause_drain rfl).2 ⟨hdone, rfl, ?_⟩
    rw [inHand_of_none (s := s.setCons { s.cons with lim := s.hand.position, cstate := .drain }) hpart]
    show ahead s.hw s.cons.rd s.hand.position.toNat ≤ s.hw.batch
    rwa [show s.cons.rd = s.cons.lim.toNat by omega]

/-- CONS gone on a cancellation keeps what it knew (R189, R231). -/
theorem HandoffInv.opConsCancel (h : HandoffInv s) (hinv : Inv s)
    (hstate : s.cons.cstate = .drain ∨ s.cons.cstate = .await) : HandoffInv (opConsCancel s) := by
  have hlive := hinv.sup_of_cons (s := s) (by rcases hstate with hx | hx <;> rw [hx] <;> nofun)
  have hcode : (if s.sup.cabort = true then CExit.aborted else .stopped) = .stopped ∨
      (if s.sup.cabort = true then CExit.aborted else .stopped) = .aborted := by
    split
    · exact .inr rfl
    · exact .inl rfl
  rw [opConsCancel_eq]
  refine h.consStep hlive rfl rfl rfl fun hc => (consClause_cancelled rfl hcode).2 ?_
  rcases hstate with hdrain | hawait
  · exact .inl ((consClause_drain hdrain).1 hc)
  · exact .inr ((consClause_await hawait).1 hc)

/-- RBRD: the sample consumed is in hand (R181). -/
theorem HandoffInv.rbrd (h : HandoffInv s) (hinv : Inv s) (hat : consAt s .none) (hleft : (s.cons.rd : Int) ≠ s.cons.lim) :
    HandoffInv ((opRbrd s).consTo .taken) := by
  obtain ⟨⟨hdrain, -⟩, hnone⟩ := hat
  obtain ⟨hlimLt, hlim⟩ := hinv.lim_cursor
  refine h.consStep (hinv.sup_of_cons (by rw [hdrain]; nofun)) rfl rfl rfl fun hc => ?_
  obtain ⟨hdone, hreceived, hle⟩ := (consClause_drain hdrain).1 hc
  rw [inHand_of_none hnone] at hle
  refine (consClause_drain (s := (opRbrd s).consTo .taken) hdrain).2 ⟨hdone, hreceived, ?_⟩
  rw [inHand_of_part (s := (opRbrd s).consTo .taken) nofun]
  have hfewer := ahead_nextSlot_left s.hw hinv.rdLt hlimLt (by omega)
  exact (hfewer.trans_le hle :)

/-- From `s` to `t` CONS keeps its cursors, and goes on as it was or exits with its last column. -/
structure DrainsOn (s t : State) : Prop where
  rd : t.cons.rd = s.cons.rd
  lim : t.cons.lim = s.cons.lim
  state : (t.cons.cstate = s.cons.cstate ∧ t.cons.cexit = s.cons.cexit) ∨
    (t.cons.cstate = .exit ∧ t.cons.cexit = .complete)

theorem drainsOn_of_cons (h : t.cons = s.cons) : DrainsOn s t where
  rd := congrArg Consumer.rd h
  lim := congrArg Consumer.lim h
  state := .inl ⟨congrArg Consumer.cstate h, congrArg Consumer.cexit h⟩

theorem DrainsOn.refl (s : State) : DrainsOn s s := drainsOn_of_cons rfl

theorem DrainsOn.trans {u : State} (h : DrainsOn s t) (h' : DrainsOn t u) : DrainsOn s u where
  rd := h'.rd.trans h.rd
  lim := h'.lim.trans h.lim
  state := by
    rcases h'.state with ⟨hstate, hcode⟩ | hexits
    · rw [hstate, hcode]; exact h.state
    · exact .inr hexits

/-- The end of a column: CONS exits where it was the last one (R230). -/
theorem drainsOn_opCcol (s : State) : DrainsOn s (opCcol s) := by
  have hcolumn : DrainsOn s (opColumn s) := by rw [opColumn_eq]; exact drainsOn_of_cons rfl
  have hemit (u : State) : DrainsOn u (opEmit u) := by
    rw [opEmit_eq]
    split <;> exact ⟨rfl, rfl, .inl ⟨rfl, rfl⟩⟩
  have hclose (u : State) : DrainsOn u (opCloseColumn u) := by
    unfold opCloseColumn
    dsimp only
    split
    · exact ⟨rfl, rfl, .inr ⟨rfl, rfl⟩⟩
    · exact ⟨rfl, rfl, .inl ⟨rfl, rfl⟩⟩
  exact hcolumn.trans ((hemit _).trans (hclose _))

theorem drainsOn_part (s : State) (p : CstepPart) : DrainsOn s (p.effect s) := by
  cases p with
  | ccol => exact drainsOn_opCcol s
  | cchunk =>
    show DrainsOn s (opChunkDone (opCchunk s))
    rw [opCchunk_eq]
    exact ⟨rfl, rfl, .inl ⟨rfl, rfl⟩⟩
  | advance =>
    show DrainsOn s (opAdvance s)
    rw [opAdvance_eq]
    exact drainsOn_of_cons rfl
  | _ => exact ⟨rfl, rfl, .inl ⟨rfl, rfl⟩⟩

theorem drainsOn_opNextParts (n : Nat) (s : State) : DrainsOn s (opNextParts n s) :=
  opNextParts_keeps DrainsOn.refl DrainsOn.trans drainsOn_part n s

/-- The parts of a CSTEP under way keep at most its one sample in hand (R222). -/
theorem HandoffInv.drainsOn (h : HandoffInv s) (hinv : Inv s) (hpart : s.cons.part ≠ .none) (honly : ConsOnly s t)
    (ht : DrainsOn s t) : HandoffInv t := by
  have hdrain := (hinv.consPart hpart).1.1
  refine h.consStep (hinv.sup_of_cons (by rw [hdrain]; nofun)) honly.hw honly.prod (congrArg _ honly.hand) fun hc => ?_
  obtain ⟨hdone, hreceived, hle⟩ := (consClause_drain hdrain).1 hc
  rw [inHand_of_part hpart] at hle
  have hclause : drainClause t := by
    refine ⟨honly.hand ▸ hdone, by rw [honly.hand, ht.lim, hreceived], ?_⟩
    rw [unread, honly.hw, ht.rd, ht.lim]
    exact (Nat.add_le_add_left (inHand_le t) _).trans hle
  rcases ht.state with ⟨hstate, -⟩ | ⟨hstate, hcode⟩
  · exact (consClause_drain (hstate.trans hdrain)).2 hclause
  · exact (consClause_complete hstate hcode).2 hclause

theorem HandoffInv.opNextParts (h : HandoffInv s) (hinv : Inv s) (n : Nat) : HandoffInv (opNextParts n s) := by
  by_cases hpart : s.cons.part = .none
  · rw [opNextParts_of_none s hpart]; exact h
  · exact h.drainsOn hinv hpart (consOnly_opNextParts n s) (drainsOn_opNextParts n s)

theorem CstepPart.part_of_due {p : CstepPart} (h : p.due s) : s.cons.part ≠ .none := by
  cases p with
  | carg => exact h.2.1
  | count | rbwin | cchunk | window | acc | cchunkEnd => rw [h.2]; nofun
  | divide | magnitude | ccol => rw [h.1.2]; nofun
  | fft | bitrev | sum | difference | bflyEnd | advance => rw [h.1.2]; nofun
  | fftEnd | twid | bfpass | bfpassEnd | bfly | product => rw [h.1.1.2]; nofun

/-! ## Every operation -/

/-- SUP's state is no part of the clauses of a run. -/
theorem HandoffInv.setSup (h : HandoffInv s) (hlive : s.sup.sstate ≠ .idle) (x : Supervisor) : HandoffInv (s.setSup x) :=
  .inr (h.clauses hlive)

/-- A STOP finishes the steps under way, and the slot and the cursors stay as they leave them (R252, R329). -/
theorem HandoffInv.stop (h : HandoffInv s) (hinv : Inv s) (hlive : s.sup.sstate ≠ .idle) (x : Supervisor) :
    HandoffInv ((Machine.opFinish s).setSup x) := by
  have hfinished : HandoffInv (Machine.opFinish s) := by
    rw [opFinish, opFinishCons_eq]
    exact (h.opFinishProd hinv).opNextParts hinv.opFinishProd _
  exact hfinished.setSup (by rw [sup_opFinish]; exact hlive) x

/-- An accepted START finds nothing written and nothing published (R251). -/
theorem handoffInv_opStartAccepted (s : State) : HandoffInv (opStartAccepted s) := by
  have hzero : ahead s.hw 0 0 = 0 := ahead_self s.hw (ringLen_pos s.hw)
  have hunread : unread (opStartAccepted s) = 0 := hzero
  have hunpublished : unpublished (opStartAccepted s) = 0 := hzero
  refine .inr ⟨(prodClause_run rfl).2 ⟨?_, ?_⟩, (consClause_drain rfl).2 ⟨rfl, rfl, ?_⟩⟩
  · show (0 : Int) ≠ -1
    omega
  · rw [hunpublished, uncounted_of_not_written (s := opStartAccepted s) nofun]; rfl
  · rw [hunread, inHand_of_none (s := opStartAccepted s) rfl]; exact Nat.zero_le _

/-- The records of an event are no part of the clauses. -/
theorem HandoffInv.record (h : HandoffInv s) (f : Flags) (l : EventLines) : HandoffInv { s with flags := f, lines := l } :=
  h

theorem HandoffInv.opTaken (h : HandoffInv s) (hinv : Inv s) (htaken : OpTaken s i t) : HandoffInv t := by
  cases htaken with
  | busy => rw [raise_busy]; exact h.record _ s.lines
  | configError => rw [raise_configError]; exact h.record _ _
  | openFailure => rw [raise_openFailure]; exact h.record _ _
  | started => exact handoffInv_opStartAccepted s
  | stop hrun => exact h.stop hinv (by rw [hrun]; nofun) _
  | expire hdue =>
    have hraised : HandoffInv (raise .expiry s) := by rw [raise_expiry]; exact h.record _ s.lines
    exact hraised.setSup (by rw [raise_sup, hdue.1]; nofun) _
  | join => exact .inl rfl
  | rbwr hdue => exact h.rbwr hinv hdue.1.1 (by rw [hdue.2]; nofun)
  | pfetch hdue => exact h.opPfetch hinv hdue.1.1.1 hdue.1.2
  | pdecode hdue =>
    obtain ⟨⟨hworks, hpart⟩, hframe⟩ := hdue
    obtain ⟨f, hf⟩ := hasFrame_iff.1 hframe
    rw [opPdecode_of_frame s hf]
    exact h.prodReads hinv hworks.1 (by rw [hpart]; nofun) s.src hworks.1 rfl rfl nofun
  | pstep hdue =>
    obtain ⟨⟨hworks, hpart⟩, hframe⟩ := hdue
    obtain ⟨f, hf⟩ := hasFrame_iff.1 hframe
    have hpart' : s.prod.part ≠ .written := by rw [hpart]; nofun
    have hinv' := hinv.opPdecode
    unfold opPstep
    rw [opPdecode_of_frame s hf] at hinv' ⊢
    have hdecoded := h.prodReads hinv hworks.1 hpart' (x := { s.prod with smp := sampleOf s.cfg f }) s.src hworks.1 rfl rfl
      hpart'
    exact hdecoded.writeFrame hinv' hworks hframe hpart'
  | pstepEnd hdue => exact h.countFrame hinv hdue.1.1 hdue.2
  | peos hdue => exact h.opPeos hinv hdue.1.1.1 hdue.1.2
  | pfail hdue => exact h.prodGone hinv (prodAtWork_of_run hdue.1.1.1) nofun
  | pexit hdue => exact h.opProdCancel hinv (hdue.1.elim prodAtWork_of_run prodAtWork_of_waits)
  | signalCancel hwaits => exact h.opProdCancel hinv (prodAtWork_of_waits hwaits)
  | signalComplete hwaits _ hdone => exact h.opSignalComplete hinv hwaits hdone
  | awaitCancel hawait => exact h.opConsCancel hinv (.inr hawait)
  | awaitComplete hawait _ hnew => exact h.opAwaitComplete hinv hawait hnew
  | awaitEnter hdue => exact h.opAwaitEnter hinv hdue.1.1.1 hdue.2
  | cexit hdue => exact h.opConsCancel hinv hdue.1
  | rbrd hdue => exact h.rbrd hinv hdue.1 hdue.2
  | cstep hdue => exact (h.rbrd hinv hdue.1 hdue.2).opNextParts (hinv.rbrd hdue.1) 3
  | part p hdue => exact h.drainsOn hinv (CstepPart.part_of_due hdue) (consOnly_part s p) (drainsOn_part s p)

/-- Settles O29: each way an operation is taken keeps both clauses. -/
theorem handoffInvariantKept : Obligations.HandoffInvariantKept := by
  intro i s t hinv h hexec
  rcases exec_cases hexec with rfl | htaken
  · exact h
  · exact h.opTaken hinv htaken

end Sys2Proof.Machine
end

section
/-! PROOFS. The windows CONS may still read and the slots PROD may still write (R81): measured from CONS's read cursor, the
first lie behind what is published, the second from the write cursor on, and together they do not fill the ring. -/

namespace Sys2Proof.Machine

variable {s : State}

/-- A window ends at a slot of the ring, however many turns the cursor that names the slot counts (R182). -/
theorem windowSlot_mod (p : Params) (e i : Nat) : windowSlot p (e % p.ringLen) i = windowSlot p e i := by
  rw [windowSlot, windowSlot, Nat.add_assoc, Nat.mod_add_mod, Nat.add_assoc]

/-- A window that ends behind a slot, by two batches at most, does not hold the slot. -/
theorem windowSlot_ne (p : Params) {e i w : Nat} (hi : i < p.chunk) (hbehind : e < w) (hnear : w ≤ e + 2 * p.batch) :
    windowSlot p e i ≠ w % p.ringLen := by
  have hring := ringLen_eq p
  have hlt : e + (p.ringLen - (p.chunk - 1)) + i < w + p.ringLen := by omega
  have hne := slot_ne_of_lt_turn p hlt (by omega)
  rwa [Nat.add_mod_right] at hne

/-- The write cursor, measured from the read cursor: past what is received and what is written since (R81). -/
theorem wr_eq (hinv : Inv s) (hposition : s.hand.position = s.cons.lim) :
    s.prod.wr = (s.cons.rd + (unread s + unpublished s)) % s.hw.ringLen := by
  obtain ⟨hlimLt, -⟩ := hinv.lim_cursor
  rw [unread, unpublished, hposition, ← Nat.add_assoc, ← Nat.mod_add_mod, add_ahead s.hw hinv.rdLt hlimLt,
    add_ahead s.hw hlimLt hinv.wrLt]

/-- Settles O32: a window to be read ends before what is received does, and PROD's slots come after it. -/
theorem ringReadsNeverMeetWrites : Obligations.RingReadsNeverMeetWrites := by
  intro s hinv hhandoff hdrain hrun i d hi hd
  obtain ⟨hp, hc⟩ := hhandoff.clauses (hinv.sup_of_prod (by rw [hrun]; nofun))
  obtain ⟨-, hcount⟩ := (prodClause_run hrun).1 hp
  obtain ⟨-, hreceived, hbatch⟩ := (consClause_drain hdrain).1 hc
  have hwrite : (s.prod.wr + d) % s.hw.ringLen = (s.cons.rd + (unread s + unpublished s) + d) % s.hw.ringLen := by
    rw [wr_eq hinv hreceived, Nat.mod_add_mod]
  rw [hwrite]
  refine ⟨fun n hn => ?_, fun hpart => ?_⟩
  · rw [windowSlot_mod]
    exact windowSlot_ne s.hw hi (by omega) (by omega)
  · rw [inHand_of_part hpart] at hbatch
    have hidx := (hinv.consPart hpart).2
    have hnext : (s.cons.rd + (unread s + unpublished s) + d) % s.hw.ringLen =
        (s.spectral.idx + 1 + (unread s + unpublished s + d)) % s.hw.ringLen := by
      rw [← hidx, Nat.add_assoc, Nat.mod_add_mod]
    rw [hnext]
    exact windowSlot_ne s.hw hi (by omega) (by omega)

end Sys2Proof.Machine
end

section
/-! PROOFS. Who writes what (R75, R183, R290): a step of PROD outside the handoff writes PROD's side of the state and
nothing of the other, whatever the other holds, and a step of CONS writes CONS's side. -/

namespace Sys2Proof.Machine

variable {s t : State} {i p c : Instr}

/-! ## The two sides of the state -/

/-- What a step of PROD outside the handoff writes: PROD's registers, the ring, the stream, and the records of E2 where it
raises it (R271, R290). -/
structure ProdUpdate where
  prod : Producer
  ring : Memory
  src : Source
  failed : Bool

def ProdUpdate.apply (u : ProdUpdate) (s : State) : State :=
  { s with
      prod := u.prod
      ring := u.ring
      src := u.src
      flags := { s.flags with decodeFail := u.failed || s.flags.decodeFail }
      lines := { s.lines with evFail := s.lines.evFail + u.failed.toNat } }

/-- PROD's side of a state. -/
def State.prodSide (s : State) : ProdUpdate := { prod := s.prod, ring := s.ring, src := s.src, failed := false }

/-- What a step of CONS may write (R290). -/
structure ConsSide where
  hand : Handoff
  cons : Consumer
  spectral : Spectral
  cu : ComplexUnit
  fft : FftTemps
  cols : List (List F64)
  flags : Flags
  lines : EventLines

def ConsSide.onto (k : ConsSide) (s : State) : State :=
  { s with
      hand := k.hand
      cons := k.cons
      spectral := k.spectral
      cu := k.cu
      fft := k.fft
      cols := k.cols
      flags := k.flags
      lines := k.lines }

/-- CONS's side of a state. -/
def State.consSide (s : State) : ConsSide :=
  { hand := s.hand, cons := s.cons, spectral := s.spectral, cu := s.cu, fft := s.fft, cols := s.cols, flags := s.flags
    lines := s.lines }

@[simp] theorem onto_src (k : ConsSide) (s : State) : (k.onto s).src = s.src := rfl
@[simp] theorem onto_cfg (k : ConsSide) (s : State) : (k.onto s).cfg = s.cfg := rfl

theorem onto_of_consOnly (h : ConsOnly s t) : t = t.consSide.onto s := by
  cases t
  obtain ⟨hhw, hregs, hcfg, hsup, -, hprod, hring, hport, hsrc, hinputs, htick⟩ := h
  dsimp only at *
  subst_vars
  rfl

/-! ## PROD outside the handoff -/

/-- PSTEP taken whole, of a frame that PFETCH answered (R205). -/
theorem opPstep_of_frame {f : List Byte} (h : s.prod.fetched = some (.frame f)) : opPstep s =
    { s with
        ring := s.ring.write s.prod.wr (sampleOf s.cfg f)
        prod :=
          if s.prod.run + 1 = s.hw.batch then
            { s.prod with smp := sampleOf s.cfg f, wr := nextSlot s.hw s.prod.wr, nframes := s.prod.nframes + 1, run := 0
                          ppend := nextSlot s.hw s.prod.wr, pstate := .sigWait, fetched := none, part := .none }
          else
            { s.prod with smp := sampleOf s.cfg f, wr := nextSlot s.hw s.prod.wr, nframes := s.prod.nframes + 1
                          run := s.prod.run + 1, fetched := none, part := .none } } := by
  rw [opPstep, opPdecode_of_frame s h, opCountFrame_eq]; rfl

/-- `u` is what the step `p` of PROD writes in `s`, and what it would write with any other side of CONS. -/
def ProdUpdate.IsOf (u : ProdUpdate) (p : Instr) (s : State) : Prop :=
  ∀ k : ConsSide, exec p (k.onto s) = .next (u.apply (k.onto s))

/-- The ring after the step `p` of PROD: as it was, or written at the cursor by RBWR or PSTEP, which is enabled (R180). -/
def ProdUpdate.RingOf (u : ProdUpdate) (p : Instr) (s : State) : Prop :=
  u.ring = s.ring ∨
  ((p = .rbwr ∨ p = .pstep) ∧ prodWorks s ∧ s.prod.part ≠ .written ∧ ∃ x, u.ring = s.ring.write s.prod.wr x)

theorem ProdUpdate.IsOf.exec {u : ProdUpdate} (h : u.IsOf p s) : exec p s = .next (u.apply s) := h s.consSide

/-- Whether a step of PROD outside the handoff is enabled, is seen on PROD's side alone. -/
theorem enabled_onto (hp : p ∈ prodSteps) (k : ConsSide) : enabled p (k.onto s) ↔ enabled p s := by
  simp only [prodSteps, List.mem_cons, List.not_mem_nil, or_false] at hp
  rcases hp with rfl | rfl | rfl | rfl | rfl | rfl | rfl <;> exact Iff.rfl

theorem opPfetch_onto (k : ConsSide) (s : State) : opPfetch (k.onto s) = (opPfetch s).prodSide.apply (k.onto s) := by
  unfold opPfetch
  rw [onto_src, onto_cfg]
  split <;> rfl

theorem opPfetch_ring (s : State) : (opPfetch s).ring = s.ring := by
  unfold opPfetch
  split <;> rfl

theorem opPdecode_ring (s : State) : (opPdecode s).ring = s.ring := by
  unfold opPdecode
  split <;> rfl

/-- The update of an enabled step. -/
theorem exists_update_of_enabled (hp : p ∈ prodSteps) (h : enabled p s) :
    ∃ u : ProdUpdate, u.IsOf p s ∧ u.RingOf p s := by
  cases p with
  | ppoll => exact h.elim
  | pfetch =>
    refine ⟨(opPfetch s).prodSide, fun k => ?_, .inl (opPfetch_ring s)⟩
    rw [← opPfetch_onto]
    exact stepIf_of _ _ _ h
  | pdecode =>
    have hdue : prodAt s .none ∧ hasFrame s = true := h
    obtain ⟨f, hf⟩ := hasFrame_iff.1 hdue.2
    refine ⟨((opPdecode s).prodTo .decoded).prodSide, fun k => (stepIf_of _ _ _ hdue).trans ?_, .inl (opPdecode_ring s)⟩
    rw [opPdecode_of_frame s hf, opPdecode_of_frame (k.onto s) hf]; rfl
  | rbwr =>
    have hdue : prodAt s .decoded := h
    exact ⟨((opRbwr s).prodTo .written).prodSide, fun k => stepIf_of _ _ _ hdue,
      .inr ⟨.inl rfl, hdue.1, by rw [hdue.2]; nofun, s.prod.smp, rfl⟩⟩
  | pstep =>
    by_cases hwhole : prodAt s .none ∧ hasFrame s = true
    · obtain ⟨⟨hworks, hnone⟩, hframe⟩ := hwhole
      obtain ⟨f, hf⟩ := hasFrame_iff.1 hframe
      have hwrites : (opPstep s).ring = s.ring.write s.prod.wr (sampleOf s.cfg f) := by rw [opPstep_of_frame hf]
      refine ⟨(opPstep s).prodSide, fun k => ?_, .inr ⟨.inr rfl, hworks, by rw [hnone]; nofun, _, hwrites⟩⟩
      refine (congrArg Host.Outcome.next (if_pos ⟨⟨hworks, hnone⟩, hframe⟩)).trans ?_
      rw [opPstep_of_frame hf, opPstep_of_frame (s := k.onto s) hf]; rfl
    · have hend : prodAt s .written := h.resolve_left hwhole
      refine ⟨(opCountFrame s).prodSide, fun k => ?_, .inl (by rw [opCountFrame_eq]; rfl)⟩
      refine (congrArg Host.Outcome.next ((if_neg hwhole).trans (if_pos hend))).trans ?_
      rw [opCountFrame_eq, opCountFrame_eq]; rfl
  | peos =>
    have hdue : prodAt s .none ∧ s.prod.fetched = some .eos := h
    refine ⟨(opPeos s).prodSide, fun k => (stepIf_of _ _ _ hdue).trans ?_, .inl (by rw [opPeos_eq]; rfl)⟩
    rw [opPeos_eq, opPeos_eq]; rfl
  | pfail =>
    exact ⟨{ s.prodSide with prod := { s.prod with pexit := .failed, pstate := .exit }, failed := true },
      fun k => stepIf_of _ _ _ h, .inl rfl⟩
  | _ => exact absurd hp (by decide)

/-- A step of PROD outside the handoff writes an update of PROD's side, which depends on PROD's side alone. -/
theorem exists_update (hp : p ∈ prodSteps) (s : State) : ∃ u : ProdUpdate, u.IsOf p s ∧ u.RingOf p s := by
  by_cases h : enabled p s
  · exact exists_update_of_enabled hp h
  · exact ⟨s.prodSide, fun k => exec_of_not_enabled (mt (enabled_onto hp k).1 h), .inl rfl⟩

/-! ## CONS -/

/-- `k` is what the step `c` of CONS leaves on CONS's side: AWAIT alone may mark the handoff done, and CSTEP and CCOL alone
may emit a column (R183, R230). -/
structure ConsSide.IsOf (k : ConsSide) (c : Instr) (s : State) : Prop where
  hand : k.hand = s.hand ∨ (c = .await ∧ k.hand.position = s.hand.position)
  cols : k.cols = s.cols ∨ c = .cstep ∨ c = .ccol

/-- Of the parts of a CSTEP CCOL alone emits a column (R230). -/
theorem cols_part {q : CstepPart} (hq : q ≠ .ccol) (s : State) : (q.effect s).cols = s.cols := by
  cases q with
  | ccol => exact absurd rfl hq
  | cchunk => show (opChunkDone (opCchunk s)).cols = _; rw [opCchunk_eq]; rfl
  | advance => show (opAdvance s).cols = _; rw [opAdvance_eq]
  | _ => rfl

theorem consSide_of_opTaken (hc : c ∈ consSteps) (h : OpTaken s c t) : ∃ k : ConsSide, t = k.onto s ∧ k.IsOf c s := by
  cases h with
  | busy | configError | openFailure | started | stop | expire | join | rbwr | pfetch | pdecode | pstep | pstepEnd | peos
  | pfail | pexit | signalCancel | signalComplete => exact absurd hc (by decide)
  | awaitCancel | cexit =>
    exact ⟨_, onto_of_consOnly (consOnly_opConsCancel s), .inl (consOnly_opConsCancel s).hand,
      .inl (by rw [opConsCancel_eq]; rfl)⟩
  | awaitComplete =>
    exact ⟨_, onto_of_consOnly (consOnly_opAwaitComplete s), .inl (consOnly_opAwaitComplete s).hand,
      .inl (by rw [opAwaitComplete_eq]; rfl)⟩
  | awaitEnter => exact ⟨(opAwaitEnter s).consSide, rfl, .inr ⟨rfl, rfl⟩, .inl rfl⟩
  | rbrd => exact ⟨((opRbrd s).consTo .taken).consSide, rfl, .inl rfl, .inl rfl⟩
  | cstep =>
    exact ⟨_, onto_of_consOnly (consOnly_opCstep s), .inl (consOnly_opCstep s).hand, .inr (.inl rfl)⟩
  | part q =>
    refine ⟨_, onto_of_consOnly (consOnly_part s q), .inl (consOnly_part s q).hand, ?_⟩
    by_cases hq : q = .ccol
    · exact .inr (.inr (congrArg CstepPart.instr hq))
    · exact .inl (cols_part hq s)

/-- A step of CONS writes CONS's side of the state and nothing else. -/
theorem exists_consSide (hc : c ∈ consSteps) (h : exec c s = .next t) : ∃ k : ConsSide, t = k.onto s ∧ k.IsOf c s := by
  rcases exec_cases h with rfl | htaken
  · exact ⟨t.consSide, rfl, .inl rfl, .inl rfl⟩
  · exact consSide_of_opTaken hc htaken

/-! ## The statement -/

/-- The operations of SUP, and those of PROD that may publish or leave its loop on a cancellation. -/
def otherSteps : List Instr := [.start, .stop, .expire, .join, .signal, .pexit]

theorem instr_mem (i : Instr) : i ∈ prodSteps ∨ i ∈ consSteps ∨ i ∈ otherSteps := by cases i <;> decide

theorem not_mem_both {l m : List Instr} (h : ∀ j ∈ l, j ∉ m) (hl : i ∈ l) {q : Prop} (hm : i ∈ m) : q :=
  absurd hm (h i hl)

/-- Finishing the steps under way writes the slot never, and the ring and the log only where there is one (R329). -/
theorem opFinish_owned (s : State) :
    (opFinish s).hand = s.hand ∧ (s.prod.part = .none → (opFinish s).ring = s.ring) ∧
    (s.cons.part = .none → (opFinish s).cols = s.cols) := by
  have honly := consOnly_opFinishCons (opFinishProd s)
  refine ⟨honly.hand.trans ?_, fun hpart => honly.ring.trans ?_, fun hpart => ?_⟩
  · unfold opFinishProd
    split
    · rfl
    · rw [opCountFrame_eq]; rfl
    · rw [opCountFrame_eq]
  · rw [opFinishProd_of_none s hpart]
  · have hfinished := prodOnly_opFinishProd s
    rw [opFinish, opFinishCons_of_none _ (by rw [hfinished.cons]; exact hpart), hfinished.cols]

theorem opProdCancel_owned (s : State) :
    ProdOnly s (opProdCancel s) ∧ (opProdCancel s).ring = s.ring ∧ (opProdCancel s).hand = s.hand := by
  refine ⟨prodOnly_opProdCancel s, ?_⟩
  rw [opProdCancel_eq]
  exact ⟨rfl, rfl⟩

/-- SIGNAL writes PROD's registers and the slot (R184 to R186). -/
theorem execSignal_owned (h : execSignal s = .next t) : ProdOnly s t ∧ t.ring = s.ring := by
  cases h
  split
  case isTrue hwaits =>
    split
    · obtain ⟨honly, hring, -⟩ := opProdCancel_owned s
      exact ⟨honly, hring⟩
    · split
      · obtain ⟨pp, px, ps, heq, -⟩ := opSignalComplete_cases s hwaits
        exact ⟨prodOnly_opSignalComplete s, by rw [heq]⟩
      · exact ⟨.refl s, rfl⟩
  case isFalse => exact ⟨.refl s, rfl⟩

/-- PEXIT writes PROD's registers (R209). -/
theorem execPexit_owned (h : execPexit s = .next t) : ProdOnly s t ∧ t.ring = s.ring ∧ t.hand = s.hand := by
  rcases stepIf_cases _ _ h with ⟨-, rfl⟩ | ⟨-, rfl⟩
  · exact opProdCancel_owned s
  · exact ⟨.refl t, rfl, rfl⟩

/-- STOP writes the slot never, and the ring and the log only where it finishes a step under way (R329). -/
theorem execStop_owned (h : execStop s = .next t) :
    t.hand = s.hand ∧ (s.prod.part = .none → t.ring = s.ring) ∧ (s.cons.part = .none → t.cols = s.cols) := by
  rcases stepIf_cases _ _ h with ⟨-, rfl⟩ | ⟨-, rfl⟩
  · exact opFinish_owned s
  · exact ⟨rfl, fun _ => rfl, fun _ => rfl⟩

/-- EXPIRE and JOIN write none of the slot, the ring and the log (R254, R255). -/
theorem expireJoin_owned (hi : i = .expire ∨ i = .join) (h : exec i s = .next t) :
    t.hand = s.hand ∧ t.ring = s.ring ∧ t.cols = s.cols := by
  rcases hi with rfl | rfl
  · rcases stepIf_cases _ _ h with ⟨-, rfl⟩ | ⟨-, rfl⟩
    · rw [setSup_hand, setSup_ring, setSup_cols]
      exact ⟨raise_hand s _, raise_ring s _, raise_cols s _⟩
    · exact ⟨rfl, rfl, rfl⟩
  · rcases stepIf_cases _ _ h with ⟨-, rfl⟩ | ⟨-, rfl⟩ <;> exact ⟨rfl, rfl, rfl⟩

theorem ProdOnly.fields (h : ProdOnly s t) :
    t.cons = s.cons ∧ t.spectral = s.spectral ∧ t.cols = s.cols ∧ t.sup = s.sup ∧ t.cfg = s.cfg ∧ t.regs = s.regs ∧
    t.cu = s.cu ∧ t.fft = s.fft :=
  ⟨h.cons, h.spectral, h.cols, h.sup, h.cfg, h.regs, h.cu, h.fft⟩

/-- Settles O28: the update of a step of PROD and the side of a step of CONS say what they write; the others are taken one
by one. -/
theorem ownershipOfState : Obligations.OwnershipOfState := by
  intro i s t hexec
  rcases instr_mem i with hp | hc | hother
  · obtain ⟨u, hu, hring⟩ := exists_update hp s
    obtain rfl : u.apply s = t := Host.Outcome.next.inj (hu.exec.symm.trans hexec)
    refine ⟨fun _ => ⟨rfl, rfl, rfl, rfl, rfl, rfl, rfl, rfl⟩, not_mem_both (by decide) hp, fun _ _ _ => rfl,
      fun _ hrbwr hpstep _ => ?_, fun _ _ _ _ => rfl⟩
    exact hring.resolve_right fun hwrites => hwrites.1.elim hrbwr hpstep
  · obtain ⟨k, rfl, hk⟩ := exists_consSide hc hexec
    refine ⟨not_mem_both (by decide) hc, fun _ => ⟨rfl, rfl, rfl, rfl, rfl, rfl, ?_⟩, fun _ _ hawait => ?_,
      fun _ _ _ _ => rfl, fun _ hcstep hccol _ => ?_⟩
    · exact hk.hand.elim (congrArg Handoff.position) And.right
    · exact hk.hand.resolve_right fun hx => hawait hx.1
    · exact hk.cols.resolve_right fun hx => hx.elim hcstep hccol
  · cases i with
    | start =>
      exact ⟨fun hi => absurd hi (by decide), fun hi => absurd hi (by decide), fun hne => absurd rfl hne,
        fun hne => absurd rfl hne, fun hne => absurd rfl hne⟩
    | stop =>
      obtain ⟨hhand, hring, hcols⟩ := execStop_owned hexec
      exact ⟨fun hi => absurd hi (by decide), fun hi => absurd hi (by decide), fun _ _ _ => hhand,
        fun _ _ _ hpart => hring (hpart.resolve_left fun hne => hne rfl),
        fun _ _ _ hpart => hcols (hpart.resolve_left fun hne => hne rfl)⟩
    | expire | join =>
      obtain ⟨hhand, hring, hcols⟩ := expireJoin_owned (by decide) hexec
      exact ⟨fun hi => absurd hi (by decide), fun hi => absurd hi (by decide), fun _ _ _ => hhand, fun _ _ _ _ => hring,
        fun _ _ _ _ => hcols⟩
    | signal =>
      obtain ⟨honly, hring⟩ := execSignal_owned hexec
      exact ⟨fun _ => honly.fields, fun hi => absurd hi (by decide), fun _ hne => absurd rfl hne, fun _ _ _ _ => hring,
        fun _ _ _ _ => honly.cols⟩
    | pexit =>
      obtain ⟨honly, hring, hhand⟩ := execPexit_owned hexec
      exact ⟨fun _ => honly.fields, fun hi => absurd hi (by decide), fun _ _ _ => hhand, fun _ _ _ _ => hring,
        fun _ _ _ _ => honly.cols⟩
    | _ => exact absurd hother (by decide)

end Sys2Proof.Machine
end

section
/-! PROOFS. PROD's steps outside the handoff and CONS's steps commute (R82, R335): a step of CONS does what it did,
whatever a step of PROD wrote before it, since no slot that CONS reads is the one PROD writes (R81). -/

namespace Sys2Proof.Machine

variable {s t : State} {c p : Instr} (u : ProdUpdate)

/-! ## What a step of PROD leaves for CONS to read -/

@[simp] theorem apply_hw (s : State) : (u.apply s).hw = s.hw := rfl
@[simp] theorem apply_ring (s : State) : (u.apply s).ring = u.ring := rfl
@[simp] theorem apply_cons (s : State) : (u.apply s).cons = s.cons := rfl
@[simp] theorem apply_spectral (s : State) : (u.apply s).spectral = s.spectral := rfl
@[simp] theorem apply_fft (s : State) : (u.apply s).fft = s.fft := rfl

/-- The update leaves the samples of the window that ends at slot `e`. -/
def ProdUpdate.KeepsWindow (u : ProdUpdate) (s : State) (e : Nat) : Prop :=
  ∀ i, i < s.hw.chunk → u.ring.read (windowSlot s.hw e i) = s.ring.read (windowSlot s.hw e i)

variable {u}

theorem windowOf_of_keepsWindow {e : Nat} (h : u.KeepsWindow s e) : windowOf s.hw u.ring e = windowOf s.hw s.ring e :=
  List.map_congr_left fun i hi => h i (List.mem_range.1 hi)

/-- The last slot of a window is the one it ends at (R182). -/
theorem windowSlot_last (p : Params) {e : Nat} (he : e < p.ringLen) : windowSlot p e (p.chunk - 1) = e := by
  have := ringLen_eq p
  have hturn : e + (p.ringLen - (p.chunk - 1)) + (p.chunk - 1) = e + p.ringLen := by omega
  rw [windowSlot, hturn, Nat.add_mod_right, Nat.mod_eq_of_lt he]

theorem read_of_keepsWindow {e : Nat} (he : e < s.hw.ringLen) (h : u.KeepsWindow s e) : u.ring.read e = s.ring.read e := by
  have hread := h (s.hw.chunk - 1) (Nat.sub_lt (chunk_pos s.hw) one_pos)
  rwa [windowSlot_last s.hw he] at hread

/-! ## The operations of CONS after a step of PROD -/

/-- A choice that is made on CONS's side. -/
theorem ite_apply {d d' : Prop} [Decidable d] [Decidable d'] {a a' b b' : State} (hd : d' ↔ d) (ha : d → a' = u.apply a)
    (hb : ¬d → b' = u.apply b) : (if d' then a' else b') = u.apply (if d then a else b) := by
  by_cases hcase : d
  · rw [if_pos hcase, if_pos (hd.2 hcase), ha hcase]
  · rw [if_neg hcase, if_neg (mt hd.1 hcase), hb hcase]

theorem opConsCancel_apply (s : State) : opConsCancel (u.apply s) = u.apply (opConsCancel s) := by
  rw [opConsCancel_eq, opConsCancel_eq]; rfl

theorem opAwaitComplete_apply (s : State) : opAwaitComplete (u.apply s) = u.apply (opAwaitComplete s) := by
  rw [opAwaitComplete_eq, opAwaitComplete_eq]; rfl

theorem opRbrd_apply (h : u.ring.read s.cons.rd = s.ring.read s.cons.rd) : opRbrd (u.apply s) = u.apply (opRbrd s) := by
  rw [opRbrd_eq, opRbrd_eq, apply_ring, apply_cons, h]; rfl

theorem opRbwin_apply (h : u.KeepsWindow s s.spectral.idx) : opRbwin (u.apply s) = u.apply (opRbwin s) := by
  rw [opRbwin_eq, opRbwin_eq, apply_hw, apply_ring, apply_spectral, windowOf_of_keepsWindow h]; rfl

theorem opCchunk_apply (h : u.KeepsWindow s s.spectral.idx) : opCchunk (u.apply s) = u.apply (opCchunk s) := by
  rw [opCchunk_eq, opCchunk_eq, apply_hw, apply_ring, apply_spectral, windowOf_of_keepsWindow h]; rfl

theorem opColumn_apply (s : State) : opColumn (u.apply s) = u.apply (opColumn s) := by
  rw [opColumn_eq, opColumn_eq, apply_hw, apply_cons, apply_spectral]
  by_cases hrange : rangeIsNormal (columnScratch s.hw s.cons.nchunk s.spectral).range = true
  · rw [if_pos hrange, if_pos hrange]; rfl
  · rw [if_neg hrange, if_neg hrange]; rfl

theorem opEmit_apply (s : State) : opEmit (u.apply s) = u.apply (opEmit s) := by
  rw [opEmit_eq, opEmit_eq]
  exact ite_apply Iff.rfl (fun _ => rfl) fun _ => rfl

theorem opCloseColumn_apply (s : State) : opCloseColumn (u.apply s) = u.apply (opCloseColumn s) := by
  rw [opCloseColumn_eq, opCloseColumn_eq]; rfl

theorem part_apply (q : CstepPart) (h : u.KeepsWindow s s.spectral.idx) : q.effect (u.apply s) = u.apply (q.effect s) := by
  cases q with
  | rbwin => exact congrArg (State.consTo · .gathered) (opRbwin_apply h)
  | cchunk => exact congrArg opChunkDone (opCchunk_apply h)
  | advance =>
    show opAdvance (u.apply s) = u.apply (opAdvance s)
    rw [opAdvance_eq, opAdvance_eq]; rfl
  | ccol =>
    show opCloseColumn (opEmit (opColumn (u.apply s))) = u.apply (opCloseColumn (opEmit (opColumn s)))
    rw [opColumn_apply, opEmit_apply, opCloseColumn_apply]
  | _ => rfl

theorem opFftPart_apply (h : u.KeepsWindow s s.spectral.idx) : opFftPart (u.apply s) = u.apply (opFftPart s) := by
  unfold opFftPart
  rw [apply_fft, apply_hw]
  cases s.fft.phase with
  | idle => exact part_apply .fft h
  | pass =>
    dsimp only
    split
    · exact part_apply .fftEnd h
    · exact part_apply .bfpass h
  | ready =>
    dsimp only
    split
    · exact part_apply .bfpassEnd h
    · exact part_apply .bfly h
  | product => exact part_apply .sum h
  | sum => exact part_apply .difference h
  | difference => exact part_apply .bflyEnd h
  | advance => exact part_apply .advance h

theorem opColumnPart_apply (h : u.KeepsWindow s s.spectral.idx) : opColumnPart (u.apply s) = u.apply (opColumnPart s) := by
  unfold opColumnPart
  rw [apply_spectral, apply_hw]
  split
  · exact part_apply .magnitude h
  · split
    · exact part_apply .ccol h
    · exact part_apply .divide h

theorem opNextPart_apply (h : u.KeepsWindow s s.spectral.idx) : opNextPart (u.apply s) = u.apply (opNextPart s) := by
  unfold opNextPart
  rw [apply_cons]
  cases s.cons.part with
  | none => rfl
  | taken => exact part_apply .count h
  | chunk => exact part_apply .cchunk h
  | gathered => exact part_apply .window h
  | windowed => exact opFftPart_apply h
  | transformed => exact part_apply .acc h
  | accumulated => exact part_apply .cchunkEnd h
  | column => exact opColumnPart_apply h

/-- No part of a CSTEP after its RBRD names another sample (R181). -/
theorem idx_part (s : State) (q : CstepPart) : (q.effect s).spectral.idx = s.spectral.idx := by
  cases q with
  | ccol =>
    show (opCloseColumn (opEmit (opColumn s))).spectral.idx = _
    have hemit (v : State) : (opEmit v).spectral = v.spectral := by rw [opEmit_eq]; split <;> rfl
    rw [opCloseColumn_eq]
    show (opEmit (opColumn s)).spectral.idx = _
    rw [hemit, opColumn_eq]; rfl
  | cchunk => show (opChunkDone (opCchunk s)).spectral.idx = _; rw [opCchunk_eq]; rfl
  | advance => show (opAdvance s).spectral.idx = _; rw [opAdvance_eq]
  | _ => rfl

theorem keepsWindow_opNextPart (h : u.KeepsWindow s s.spectral.idx) :
    u.KeepsWindow (opNextPart s) (opNextPart s).spectral.idx := by
  by_cases hnone : s.cons.part = .none
  · rw [opNextPart_of_none s hnone]; exact h
  · obtain ⟨q, heq, -⟩ := opNextPart_cases hnone
    have honly := consOnly_part s q
    unfold ProdUpdate.KeepsWindow
    rw [heq, idx_part, honly.hw, honly.ring]
    exact h

theorem opNextParts_apply (n : Nat) (h : u.KeepsWindow s s.spectral.idx) :
    opNextParts n (u.apply s) = u.apply (opNextParts n s) := by
  induction n generalizing s with
  | zero => rfl
  | succ n ih =>
    show opNextParts n (opNextPart (u.apply s)) = u.apply (opNextParts n (opNextPart s))
    rw [opNextPart_apply h, ih (keepsWindow_opNextPart h)]

/-- CSTEP taken whole reads the slot of its sample and the window that ends there (R222). -/
theorem opCstep_apply (hrd : s.cons.rd < s.hw.ringLen) (h : u.KeepsWindow s s.cons.rd) :
    opCstep (u.apply s) = u.apply (opCstep s) := by
  show opNextParts 3 ((opRbrd (u.apply s)).consTo .taken) = _
  rw [opRbrd_apply (read_of_keepsWindow hrd h)]
  exact opNextParts_apply (s := (opRbrd s).consTo .taken) 3 h

/-! ## The steps of CONS after a step of PROD -/

/-- Where `r` is the next state, `r'` is that state with the update. -/
def ProdUpdate.Follows (u : ProdUpdate) (r' r : Result) : Prop := ∀ t, r = .next t → r' = .next (u.apply t)

theorem follows_next {a' a : State} (h : a' = u.apply a) : u.Follows (.next a') (.next a) := by
  intro t ht
  cases ht
  rw [h]

/-- A step of two cases, which are told apart on CONS's side. -/
theorem follows_ite {d e d' e' : Prop} [Decidable d] [Decidable e] [Decidable d'] [Decidable e'] {a a' b b' : State}
    (hd : d' ↔ d) (he : e' ↔ e) (ha : d → a' = u.apply a) (hb : e → b' = u.apply b) :
    u.Follows (.next (if d' then a' else if e' then b' else u.apply s)) (.next (if d then a else if e then b else s)) :=
  follows_next (ite_apply hd ha fun _ => ite_apply he hb fun _ => rfl)

theorem follows_stepIf {d d' : Prop} [Decidable d] [Decidable d'] {a a' : State} (hd : d' ↔ d) (ha : d → a' = u.apply a) :
    u.Follows (stepIf d' a' (u.apply s)) (stepIf d a s) :=
  follows_next (ite_apply hd ha fun _ => rfl)

/-- The update leaves what a step of CONS may read: the window of the next sample, and that of the one in hand. -/
structure ProdUpdate.KeepsReads (u : ProdUpdate) (s : State) : Prop where
  next : consAt s .none ∧ (s.cons.rd : Int) ≠ s.cons.lim → u.KeepsWindow s s.cons.rd
  inHand : s.cons.part ≠ .none → u.KeepsWindow s s.spectral.idx

/-- AWAIT reads the slot, which no step of PROD here writes (R187 to R189). -/
theorem execAwait_follows (s : State) : u.Follows (execAwait (u.apply s)) (execAwait s) :=
  follows_next (ite_apply Iff.rfl
    (fun _ => ite_apply Iff.rfl (fun _ => opConsCancel_apply s) fun _ =>
      ite_apply Iff.rfl (fun _ => opAwaitComplete_apply s) fun _ => rfl)
    fun _ => ite_apply Iff.rfl (fun _ => rfl) fun _ => rfl)

/-- A step of CONS does after a step of PROD what it does before it. -/
theorem exec_follows (hc : c ∈ consSteps) (hrd : s.cons.rd < s.hw.ringLen) (hreads : u.KeepsReads s) :
    u.Follows (exec c (u.apply s)) (exec c s) := by
  have hpart (q : CstepPart) (hdue : q.due s) : q.effect (u.apply s) = u.apply (q.effect s) :=
    part_apply q (hreads.inHand (CstepPart.part_of_due hdue))
  cases c with
  | cpoll => exact follows_next rfl
  | await => exact execAwait_follows s
  | cexit => exact follows_stepIf Iff.rfl fun _ => opConsCancel_apply s
  | rbrd =>
    exact follows_stepIf Iff.rfl fun hdue =>
      congrArg (State.consTo · .taken) (opRbrd_apply (read_of_keepsWindow hrd (hreads.next hdue)))
  | cstep => exact follows_ite Iff.rfl Iff.rfl (fun hdue => opCstep_apply hrd (hreads.next hdue)) (hpart .count)
  | rbwin => exact follows_stepIf Iff.rfl (hpart .rbwin)
  | window => exact follows_stepIf Iff.rfl (hpart .window)
  | fft => exact follows_ite Iff.rfl Iff.rfl (hpart .fft) (hpart .fftEnd)
  | bitrev => exact follows_stepIf Iff.rfl (hpart .bitrev)
  | twid => exact follows_stepIf Iff.rfl (hpart .twid)
  | bfly => exact follows_ite Iff.rfl Iff.rfl (hpart .bfly) (hpart .bflyEnd)
  | bfpass => exact follows_ite Iff.rfl Iff.rfl (hpart .bfpass) (hpart .bfpassEnd)
  | acc => exact follows_stepIf Iff.rfl (hpart .acc)
  | cchunk => exact follows_ite Iff.rfl Iff.rfl (hpart .cchunk) (hpart .cchunkEnd)
  | ccol => exact follows_stepIf Iff.rfl (hpart .ccol)
  | cmul => exact follows_ite Iff.rfl Iff.rfl (hpart .product) (hpart .advance)
  | cadd => exact follows_stepIf Iff.rfl (hpart .sum)
  | csub => exact follows_stepIf Iff.rfl (hpart .difference)
  | cdivs => exact follows_stepIf Iff.rfl (hpart .divide)
  | cabs => exact follows_stepIf Iff.rfl (hpart .magnitude)
  | carg => exact follows_stepIf Iff.rfl (hpart .carg)
  | start | stop | expire | join | rbwr | signal | ppoll | pfetch | pdecode | pstep | peos | pfail | pexit =>
    exact absurd hc (by decide)

/-! ## The statement -/

/-- The slot that PROD writes is in no window that CONS may read (R81). -/
theorem keepsReads_of_ringOf (hinv : Inv s) (hhandoff : HandoffInv s) (hring : u.RingOf p s) : u.KeepsReads s := by
  rcases hring with hsame | ⟨-, hworks, hpart, x, hwrites⟩
  · exact ⟨fun _ _ _ => by rw [hsame], fun _ _ _ => by rw [hsame]⟩
  · have hroom : s.prod.run + uncounted s + 0 < s.hw.batch := by
      rw [uncounted_of_not_written hpart]
      exact hinv.runLt
    have hwr : (s.prod.wr + 0) % s.hw.ringLen = s.prod.wr := Nat.mod_eq_of_lt hinv.wrLt
    have hkept {a : Nat} (ha : a ≠ (s.prod.wr + 0) % s.hw.ringLen) : u.ring.read a = s.ring.read a := by
      rw [hwrites]
      exact Memory.read_write_ne _ _ (hwr ▸ ha)
    refine ⟨fun hnext i hi => hkept ?_, fun htaken i hi => hkept ?_⟩
    · obtain ⟨⟨⟨hdrain, -⟩, -⟩, hleft⟩ := hnext
      obtain ⟨hlimLt, hlim⟩ := hinv.lim_cursor
      have hunread : 0 < unread s :=
        Nat.pos_of_ne_zero fun hzero => hleft (by have := (ahead_eq_zero s.hw hinv.rdLt hlimLt).1 hzero; omega)
      have hne := (ringReadsNeverMeetWrites s hinv hhandoff hdrain hworks.1 i 0 hi hroom).1 0 hunread
      rwa [Nat.add_zero, Nat.mod_eq_of_lt hinv.rdLt] at hne
    · exact (ringReadsNeverMeetWrites s hinv hhandoff (hinv.consPart htaken).1.1 hworks.1 i 0 hi hroom).2 htaken

theorem runOps_pair {i j : Instr} {v : State} (hi : exec i s = .next t) (hj : exec j t = .next v) :
    runOps [i, j] s = .next v := by
  simp only [runOps, hi, hj]

/-- Settles O60: both orders lead to what CONS's step does, with the update of PROD's step. -/
theorem producerAndConsumerCommute : Obligations.ProducerAndConsumerCommute := by
  intro s p c hinv hhandoff hp hc
  obtain ⟨u, hu, hring⟩ := exists_update hp s
  obtain ⟨a, -, hnext⟩ := flagBlind_exec c
  obtain ⟨k, hk, -⟩ := exists_consSide hc (hnext s)
  have hfollows := exec_follows hc hinv.rdLt (keepsReads_of_ringOf hinv hhandoff hring) (a s) (hnext s)
  have hprod : exec p (a s) = .next (u.apply (a s)) := hk ▸ hu k
  exact ⟨u.apply (a s), runOps_pair hu.exec hfollows, runOps_pair (hnext s) hprod⟩

end Sys2Proof.Machine
end

section
/-! PROOFS. The operation words (R110 to R115): what the decoder reads, and what HOST's words to CMD do. -/

namespace Sys2Proof.Machine

/-! ## Decode and encode -/

/-- A word is its operation number above its `arg` (R110). -/
theorem wordOpcode_append_wordArg (w : Word) : wordOpcode w ++ wordArg w = w := by
  have hfields : wordOpcode w ++ wordArg w = w.extractLsb' 0 32 :=
    BitVec.extractLsb'_append_extractLsb'_eq_extractLsb' (Nat.zero_add 24).symm
  rw [hfields, BitVec.extractLsb'_eq_self]

theorem decode_encode (i : Instr) : decode (encode i) = .ok i := by cases i <;> rfl

/-- Each row of the decoder's table is read backwards: what it decodes has the operation's number and `arg = 0`. -/
theorem fields_of_decode {w : Word} {i : Instr} (h : decode w = .ok i) :
    wordOpcode w = opcode i ∧ wordArg w = 0#24 := by
  unfold decode at h
  split at h
  case isFalse => exact nomatch h
  case isTrue harg =>
    refine ⟨BitVec.eq_of_toNat_eq ?_, eq_of_beq harg⟩
    split at h <;> cases h <;> assumption

/-- Settles O4: a word is its two fields, and the decoder has fixed both. -/
theorem decodeAndEncodeAgree : Obligations.DecodeAndEncodeAgree := by
  intro w i
  constructor
  · intro h
    obtain ⟨hopcode, harg⟩ := fields_of_decode h
    rw [encode, ← hopcode, ← harg, wordOpcode_append_wordArg]
  · rintro rfl
    exact decode_encode i

/-- Settles O3: the listed operations by their encoding, the rejected words by evaluation. -/
theorem decodesWordsOfTheTable : Obligations.DecodesWordsOfTheTable :=
  ⟨decode_encode .start, decode_encode .join, decode_encode .cdivs, decode_encode .bfpass, decode_encode .await,
    decode_encode .pstep, decode_encode .ccol, rfl, rfl, rfl⟩

/-! ## Commands -/

theorem commandOf_of_neither {w : Word} (hstart : w ≠ 0x01000000#32) (hstop : w ≠ 0x02000000#32) :
    commandOf w = none := by
  rw [commandOf, if_neg hstart, if_neg hstop]

/-- A word that HOST writes to CMD is taken as a command in that step (R42, R111). -/
theorem step_hostWrites_cmd (s : State) (w : Word) : step (s.hostWrites 12 (w.setWidth 64)) = writeCommand w s := by
  rw [step_hostWrites le_rfl, writeReg, if_pos rfl, BitVec.setWidth_setWidth_of_le _ (by decide), BitVec.setWidth_eq]

/-- Settles O6: the three cases of `commandOf`. -/
theorem commandWords : Obligations.CommandWords := by
  intro s w
  rw [step_hostWrites_cmd]
  refine ⟨?_, ?_, fun hstart hstop => ?_⟩
  · rintro rfl
    rfl
  · rintro rfl
    rfl
  · rw [writeCommand, commandOf_of_neither hstart hstop, raise_badCommand]

end Sys2Proof.Machine
end

section
/-! PROOFS. The sample of a frame (R103, R104): the digits of a field, sign extension, and the codec of samples. -/

namespace Sys2Proof.Machine

/-! ## The bytes of a number -/

theorem rawLittle_lt (f : List Byte) : rawLittle f < 2 ^ (8 * f.length) := by
  induction f with
  | nil => exact Nat.one_pos
  | cons b f ih =>
    have hbyte : b.toNat < 256 := b.isLt
    rw [rawLittle, List.length_cons, Nat.mul_succ, Nat.pow_add]
    omega

theorem length_bytesLittle (n v : Nat) : (bytesLittle n v).length = n := by
  induction n generalizing v with
  | zero => rfl
  | succ n ih => rw [bytesLittle, List.length_cons, ih]

/-- `n` bytes hold a number below `256^n`. -/
theorem rawLittle_bytesLittle {n v : Nat} (h : v < 2 ^ (8 * n)) : rawLittle (bytesLittle n v) = v := by
  induction n generalizing v with
  | zero => exact (Nat.lt_one_iff.1 h).symm
  | succ n ih =>
    rw [Nat.mul_succ, Nat.pow_add] at h
    rw [bytesLittle, rawLittle, ih (by omega), BitVec.toNat_ofNat]
    omega

theorem bytesLittle_rawLittle (f : List Byte) : bytesLittle f.length (rawLittle f) = f := by
  induction f with
  | nil => rfl
  | cons b f ih =>
    have hbyte : b.toNat < 256 := b.isLt
    have hlow : BitVec.ofNat 8 (b.toNat + 256 * rawLittle f) = b := by
      apply BitVec.eq_of_toNat_eq
      rw [BitVec.toNat_ofNat]
      omega
    have hhigh : (b.toNat + 256 * rawLittle f) / 256 = rawLittle f := by omega
    rw [List.length_cons, rawLittle, bytesLittle, hlow, hhigh, ih]

theorem rawLittle_take_succ (b : Nat) (f : List Byte) :
    rawLittle (f.take (b + 1)) = (f.getD 0 0#8).toNat + 256 * rawLittle (f.tail.take b) := by
  cases f with
  | nil => simp [rawLittle]
  | cons x f => rfl

/-- The number of a field is the sum over its bytes, byte `k` weighing `2^(8*k)`. -/
theorem rawLittle_take_eq_sum (b : Nat) (f : List Byte) :
    rawLittle (f.take b) = ((List.range b).map fun k => (f.getD k 0#8).toNat * 2 ^ (8 * k)).sum := by
  induction b generalizing f with
  | zero => rfl
  | succ b ih =>
    have hshift (k : Nat) : (f.getD (k + 1) 0#8).toNat * 2 ^ (8 * (k + 1)) =
        256 * ((f.tail.getD k 0#8).toNat * 2 ^ (8 * k)) := by
      rw [List.getD_eq_getElem?_getD, List.getD_eq_getElem?_getD, List.getElem?_tail, Nat.mul_succ, Nat.pow_add]
      ring
    rw [rawLittle_take_succ, ih, List.range_succ_eq_map, List.map_cons, List.map_map, List.sum_cons, Nat.mul_zero,
      Nat.pow_zero, Nat.mul_one, ← List.sum_map_mul_left]
    congr 2
    exact List.map_congr_left fun k _ => (hshift k).symm

/-! ## Sign extension (R11) -/

/-- Sign extension is the library's two's complement reading of the low `n` bits. -/
theorem signExtend_eq_toInt (n v : Nat) : signExtend n v = (BitVec.ofNat n v).toInt := by
  rw [signExtend, BitVec.toInt_eq_toNat_cond, BitVec.toNat_ofNat]
  cases n with
  | zero => simp [Nat.mod_one]
  | succ n =>
    have hhalf : 2 * (v % 2 ^ (n + 1)) < 2 ^ (n + 1) ↔ v % 2 ^ (n + 1) < 2 ^ n := by
      rw [Nat.pow_succ]
      omega
    rw [Nat.add_sub_cancel, Nat.cast_pow, Nat.cast_ofNat]
    simp only [hhalf]

theorem signExtend_range (n v : Nat) : -2 ^ (n - 1) ≤ signExtend n v ∧ signExtend n v < 2 ^ (n - 1) := by
  rw [signExtend_eq_toInt]
  exact ⟨BitVec.le_toInt _, BitVec.toInt_lt⟩

theorem toNat_emod_lt (n : Nat) (x : Int) : (x % 2 ^ n).toNat < 2 ^ n := by
  have hlt := Int.emod_lt_of_pos x (show (0 : Int) < 2 ^ n by positivity)
  have hnonneg := Int.emod_nonneg x (show (2 : Int) ^ n ≠ 0 by positivity)
  zify
  rwa [Int.toNat_of_nonneg hnonneg]

/-- The low bits of an integer in range give it back. -/
theorem signExtend_emod {n : Nat} {x : Int} (hn : 1 ≤ n) (hlo : -2 ^ (n - 1) ≤ x) (hhi : x < 2 ^ (n - 1)) :
    signExtend n (x % 2 ^ n).toNat = x := by
  have hbits : BitVec.ofNat n (x % 2 ^ n).toNat = BitVec.ofInt n x := by
    rw [← BitVec.toNat_inj, BitVec.toNat_ofNat, BitVec.toNat_ofInt, Nat.mod_eq_of_lt (toNat_emod_lt n x),
      Nat.cast_pow, Nat.cast_ofNat]
  rw [signExtend_eq_toInt, hbits, BitVec.toInt_ofInt_eq_self hn hlo hhi]

/-- Sign extension keeps the low bits. -/
theorem signExtend_toNat_emod {n v : Nat} (h : v < 2 ^ n) : (signExtend n v % 2 ^ n).toNat = v := by
  have hbits : (BitVec.ofInt n (signExtend n v)).toNat = v := by
    rw [signExtend_eq_toInt, BitVec.ofInt_toInt, BitVec.toNat_ofNat, Nat.mod_eq_of_lt h]
  rw [BitVec.toNat_ofInt, Nat.cast_pow, Nat.cast_ofNat] at hbits
  exact hbits

/-! ## The codec -/

theorem rawSample_lt (be : Bool) (f : List Byte) : rawSample be f < 2 ^ (8 * f.length) := by
  cases be with
  | false => exact rawLittle_lt f
  | true => exact (rawLittle_lt f.reverse).trans_eq (by rw [List.length_reverse])

theorem length_encodeSample (b : Nat) (be : Bool) (x : Int) : (encodeSample b be x).length = b := by
  cases be with
  | false => exact length_bytesLittle _ _
  | true => exact (List.length_reverse ..).trans (length_bytesLittle _ _)

/-- The encoded field stands for the low bits of the integer, in either byte order. -/
theorem rawSample_encodeSample (b : Nat) (be : Bool) (x : Int) :
    rawSample be (encodeSample b be x) = (x % 2 ^ (8 * b)).toNat := by
  have hlow := toNat_emod_lt (8 * b) x
  cases be with
  | false => exact rawLittle_bytesLittle hlow
  | true => exact (congrArg rawLittle (List.reverse_reverse _)).trans (rawLittle_bytesLittle hlow)

theorem sampleInt_of_length {b : Nat} (be : Bool) {f : List Byte} (h : f.length = b) :
    sampleInt b be f = signExtend (8 * b) (rawSample be f) := by
  rw [sampleInt, List.take_of_length_le h.le]

/-- The bytes of a frame after the field do not matter (R103). -/
theorem sampleInt_append {b : Nat} (be : Bool) {f : List Byte} (h : f.length = b) (others : List Byte) :
    sampleInt b be (f ++ others) = sampleInt b be f := by
  rw [sampleInt, sampleInt, List.take_left' h, List.take_of_length_le h.le]

/-- The bytes of a field are those of its number, in the byte order it is read with. -/
theorem encodeSample_of_emod {b : Nat} (be : Bool) {f : List Byte} {x : Int} (hlen : f.length = b)
    (hx : (x % 2 ^ (8 * b)).toNat = rawSample be f) : encodeSample b be x = f := by
  rw [encodeSample, hx]
  cases be with
  | false =>
    subst hlen
    exact bytesLittle_rawLittle f
  | true =>
    rw [← List.length_reverse] at hlen
    subst hlen
    exact (congrArg List.reverse (bytesLittle_rawLittle f.reverse)).trans (List.reverse_reverse f)

/-- Settles O36: the digits of a number and sign extension are each undone. -/
theorem sampleEncodeDecodeAgree : Obligations.SampleEncodeDecodeAgree := by
  intro b be hb _
  refine ⟨fun x others hlo hhi => ⟨length_encodeSample b be x, ?_⟩, fun f hlen => ?_⟩
  · have hlen := length_encodeSample b be x
    rw [sampleInt_append be hlen, sampleInt_of_length be hlen, rawSample_encodeSample,
      signExtend_emod (by omega) hlo hhi]
  · have hlow : rawSample be f < 2 ^ (8 * b) := hlen ▸ rawSample_lt be f
    apply encodeSample_of_emod be hlen
    rw [sampleInt_of_length be hlen, signExtend_toNat_emod hlow]

/-! ## The rule's formula -/

theorem sampleInt_little (b : Nat) (f : List Byte) : sampleInt b false f =
    signExtend (8 * b) ((List.range b).map fun k => (f.getD k 0#8).toNat * 2 ^ (8 * k)).sum :=
  congrArg (signExtend (8 * b)) (rawLittle_take_eq_sum b f)

/-- Big-endian, byte `k` from the end of the field weighs `2^(8*k)` (R104). -/
theorem sampleInt_big {b : Nat} {f : List Byte} (h : b ≤ f.length) : sampleInt b true f =
    signExtend (8 * b) ((List.range b).map fun k => (f.getD (b - 1 - k) 0#8).toNat * 2 ^ (8 * k)).sum := by
  have hlen : (f.take b).reverse.length = b := by rw [List.length_reverse, List.length_take, Nat.min_eq_left h]
  have hbyte (k : Nat) (hk : k < b) : (f.take b).reverse.getD k 0#8 = f.getD (b - 1 - k) 0#8 := by
    have hlast : b - 1 - k < b := by omega
    rw [List.getD_eq_getElem?_getD, List.getD_eq_getElem?_getD, List.getElem?_reverse (by simpa [h] using hk),
      List.length_take, Nat.min_eq_left h, List.getElem?_take_of_lt hlast]
  calc sampleInt b true f
      = signExtend (8 * b) (rawLittle ((f.take b).reverse.take b)) := by
        rw [List.take_of_length_le hlen.le, sampleInt, rawSample, if_pos rfl]
    _ = _ := by
        rw [rawLittle_take_eq_sum]
        congr 2
        exact List.map_congr_left fun k hk => by rw [hbyte k (List.mem_range.1 hk)]

/-- A sample of at most four bytes is an integer that converts exactly (R13). -/
theorem fFixed_fOfInt_sampleInt {b : Nat} (hb : b ≤ 4) (be : Bool) (f : List Byte) :
    fFixed (fOfInt (sampleInt b be f)) = (fUnit : Int) * sampleInt b be f := by
  obtain ⟨hlo, hhi⟩ := signExtend_range (8 * b) (rawSample be (f.take b))
  have hwidth : (2 : Int) ^ (8 * b - 1) ≤ 2 ^ 53 := pow_le_pow_right₀ (by decide) (by omega)
  have hsmall : (sampleInt b be f).natAbs ≤ 2 ^ 53 := by
    rw [sampleInt]
    omega
  exact (integersConvertExactly _ hsmall).2.1

/-- Settles O35: the formulas of the two orders, the range of a sign extension, and exact conversion. -/
theorem sampleAssembly : Obligations.SampleAssembly := by
  refine ⟨fun b f _ hb hlen => ⟨sampleInt_little b f, sampleInt_big hlen, fun be => ?_⟩,
    fun n v _ => signExtend_eq_toInt n v, fun c f => rfl, by decide, by decide, by decide, by decide⟩
  obtain ⟨hlo, hhi⟩ := signExtend_range (8 * b) (rawSample be (f.take b))
  exact ⟨hlo, Int.le_sub_one_of_lt hhi, fFixed_fOfInt_sampleInt hb be f⟩

end Sys2Proof.Machine
end

section
/-! PROOFS. Rounding to nearest, ties to even (R147): the integer quotient, the binary64 nearest to a quotient of
units, and the four operations on finite values. -/

namespace Sys2Proof.Machine

/-! ## The nearest integer to a quotient -/

section RoundEven

variable {num den : Nat}

/-- The rounding is at most half a step away, and even where it is exactly half a step away. -/
theorem roundEven_error (num : Nat) (hden : 0 < den) :
    2 * ((roundEven num den : Int) * den - num).natAbs ≤ den ∧
    (2 * ((roundEven num den : Int) * den - num).natAbs = den → roundEven num den % 2 = 0) := by
  have hdiv : num / den * den + num % den = num := Nat.div_add_mod' num den
  have hrem : num % den < den := Nat.mod_lt num hden
  have hcases :
      roundEven num den = num / den ∧
        (2 * (num % den) < den ∨ 2 * (num % den) = den ∧ num / den % 2 = 0) ∨
      roundEven num den = num / den + 1 ∧
        (den < 2 * (num % den) ∨ 2 * (num % den) = den ∧ num / den % 2 = 1) := by
    rw [roundEven]
    split
    · omega
    · split <;> omega
  rcases hcases with ⟨hround, hhalf⟩ | ⟨hround, hhalf⟩
  · rw [hround]
    omega
  · have hup : (num / den + 1) * den = num / den * den + den := Nat.succ_mul _ _
    rw [hround]
    omega

/-- Below half a step above `c`, rounding gives at most `c`. -/
theorem roundEven_le {c : Nat} (hden : 0 < den) (h : 2 * num < 2 * (c * den) + den) : roundEven num den ≤ c := by
  obtain ⟨herror, -⟩ := roundEven_error num hden
  by_contra hgt
  have hstep : (c + 1) * den ≤ roundEven num den * den := Nat.mul_le_mul_right den (not_le.1 hgt)
  rw [Nat.succ_mul] at hstep
  omega

theorem le_roundEven {c : Nat} (hden : 0 < den) (h : c * den ≤ num) : c ≤ roundEven num den := by
  obtain ⟨herror, -⟩ := roundEven_error num hden
  by_contra hlt
  have hstep : (roundEven num den + 1) * den ≤ c * den := Nat.mul_le_mul_right den (not_le.1 hlt)
  rw [Nat.succ_mul] at hstep
  omega

/-- Half a step above an odd `c` already rounds up. -/
theorem lt_roundEven_of_odd {c : Nat} (hden : 0 < den) (hodd : c % 2 = 1) (h : 2 * (c * den) + den ≤ 2 * num) :
    c < roundEven num den := by
  have hle : c ≤ roundEven num den := le_roundEven hden (by omega)
  refine hle.lt_of_ne fun heq => ?_
  obtain ⟨herror, htie⟩ := roundEven_error num hden
  rw [← heq] at herror htie
  omega

/-- No integer is nearer to the quotient than its rounding, and of two equally near ones the rounding is the even
one. -/
theorem roundEven_nearest (hden : 0 < den) (c : Nat) :
    ((roundEven num den : Int) * den - num).natAbs ≤ ((c : Int) * den - num).natAbs ∧
    (((roundEven num den : Int) * den - num).natAbs = ((c : Int) * den - num).natAbs →
      roundEven num den ≠ c → roundEven num den % 2 = 0) := by
  obtain ⟨herror, htie⟩ := roundEven_error num hden
  rcases lt_trichotomy (roundEven num den) c with hlt | rfl | hgt
  · have hstep : (roundEven num den + 1) * den ≤ c * den := Nat.mul_le_mul_right den hlt
    rw [Nat.succ_mul] at hstep
    omega
  · exact ⟨le_rfl, fun _ hne => absurd rfl hne⟩
  · have hstep : (c + 1) * den ≤ roundEven num den * den := Nat.mul_le_mul_right den hgt
    rw [Nat.succ_mul] at hstep
    omega

end RoundEven

/-! ## The binades -/

/-- A magnitude of `2^52` times its step, or one whose step is a single unit: `q` steps of `2^k` units, up to the
carry into the next binade. -/
theorem fScaled_of_steps {x : F64} {k q : Nat} (hlo : k = 0 ∨ 2 ^ 52 ≤ q) (hhi : q ≤ 2 ^ 53)
    (hx : fMag x = 2 ^ 52 * k + q) : fScaled x = q * 2 ^ k := by
  by_cases hsub : q < 2 ^ 52
  · obtain rfl : k = 0 := by omega
    rw [fScaled, hx, if_pos (by omega), Nat.pow_zero, Nat.mul_one]
    omega
  · rcases hhi.lt_or_eq with hlt | hcarry
    · exact fScaled_of_fMag (not_lt.1 hsub) hlt hx
    · have hnext : fMag x = 2 ^ 52 * (k + 1) + 2 ^ 52 := by omega
      calc fScaled x = 2 ^ 52 * 2 ^ (k + 1) := fScaled_of_fMag le_rfl (by omega) hnext
        _ = 2 ^ 53 * 2 ^ k := by rw [← Nat.pow_add, ← Nat.pow_add]; congr 1; omega
        _ = q * 2 ^ k := by rw [hcarry]

/-- A value is a whole number of steps of `2^k` units, or it is below the binade of that step. -/
theorem fScaled_steps_or_lt (z : F64) (k : Nat) :
    (∃ c, fScaled z = c * 2 ^ k) ∨ (k ≠ 0 ∧ fScaled z < 2 ^ 52 * 2 ^ k) := by
  rcases Nat.eq_zero_or_pos k with rfl | hk
  · exact .inl ⟨fScaled z, by rw [Nat.pow_zero, Nat.mul_one]⟩
  have hfrac : fMag z % 2 ^ 52 < 2 ^ 52 := Nat.mod_lt _ (by decide)
  rw [fScaled]
  split
  · exact .inr ⟨hk.ne', hfrac.trans_le (Nat.le_mul_of_pos_right _ (by positivity))⟩
  · rcases Nat.lt_or_ge (fMag z / 2 ^ 52 - 1) k with hlow | hhigh
    · refine .inr ⟨hk.ne', ?_⟩
      calc (2 ^ 52 + fMag z % 2 ^ 52) * 2 ^ (fMag z / 2 ^ 52 - 1)
          < 2 ^ 53 * 2 ^ (fMag z / 2 ^ 52 - 1) := Nat.mul_lt_mul_of_pos_right (by omega) (by positivity)
        _ = 2 ^ 52 * 2 ^ (fMag z / 2 ^ 52 - 1 + 1) := by rw [← Nat.pow_add, ← Nat.pow_add]; congr 1; omega
        _ ≤ 2 ^ 52 * 2 ^ k := Nat.mul_le_mul_left _ (Nat.pow_le_pow_right two_pos hlow)
    · left
      obtain ⟨j, hj⟩ := Nat.exists_eq_add_of_le hhigh
      exact ⟨(2 ^ 52 + fMag z % 2 ^ 52) * 2 ^ j, by rw [hj, Nat.pow_add]; ring⟩

/-! ## Rounding to a binary64 -/

section Rounding

variable {num den : Nat}

/-- The exponent of the step in which `num / den` units are rounded. -/
def stepOf (num den : Nat) : Nat := excessBits (num / den)

/-- How many steps `num / den` units are rounded to. -/
def stepsOf (num den : Nat) : Nat := roundEven num (den * 2 ^ stepOf num den)

theorem roundMag_eq (num den : Nat) : roundMag num den = min infMag (2 ^ 52 * stepOf num den + stepsOf num den) := rfl

theorem step_pos (hden : 0 < den) : 0 < den * 2 ^ stepOf num den := by positivity

/-- A quotient has less than `2^53` steps. -/
theorem num_lt_steps (hden : 0 < den) : num < 2 ^ 53 * (den * 2 ^ stepOf num den) := by
  have hlog : num / den < 2 ^ (Nat.log2 (num / den) + 1) := Nat.lt_log2_self
  have hquot : num / den < 2 ^ (53 + stepOf num den) :=
    hlog.trans_le (Nat.pow_le_pow_right two_pos (by rw [stepOf, excessBits]; omega))
  rw [Nat.div_lt_iff_lt_mul hden, Nat.pow_add] at hquot
  calc num < 2 ^ 53 * 2 ^ stepOf num den * den := hquot
    _ = 2 ^ 53 * (den * 2 ^ stepOf num den) := by ring

/-- A quotient rounded in steps of more than one unit has at least `2^52` of them. -/
theorem steps_le_num (hden : 0 < den) (hstep : stepOf num den ≠ 0) : 2 ^ 52 * (den * 2 ^ stepOf num den) ≤ num := by
  have hlog : Nat.log2 (num / den) = 52 + stepOf num den := by
    rw [stepOf, excessBits] at hstep ⊢
    omega
  have hpos : num / den ≠ 0 := by
    rintro hzero
    rw [hzero, Nat.log2_zero] at hlog
    omega
  have hquot : 2 ^ (52 + stepOf num den) ≤ num / den := hlog ▸ Nat.log2_self_le hpos
  rw [Nat.le_div_iff_mul_le hden, Nat.pow_add] at hquot
  calc 2 ^ 52 * (den * 2 ^ stepOf num den) = 2 ^ 52 * 2 ^ stepOf num den * den := by ring
    _ ≤ num := hquot

theorem stepsOf_le (hden : 0 < den) : stepsOf num den ≤ 2 ^ 53 := by
  have hlt := num_lt_steps (num := num) hden
  exact roundEven_le (step_pos hden) (by omega)

theorem le_stepsOf (hden : 0 < den) (hstep : stepOf num den ≠ 0) : 2 ^ 52 ≤ stepsOf num den :=
  le_roundEven (step_pos hden) (steps_le_num hden hstep)

theorem step_le_of_le (den : Nat) {k e : Nat} (h : k ≤ e) : den * 2 ^ k ≤ 2 ^ e * den := by
  rw [Nat.mul_comm]
  exact Nat.mul_le_mul_right den (Nat.pow_le_pow_right two_pos h)

theorem step_eq_double (den : Nat) {k e : Nat} (h : k = e + 1) : den * 2 ^ k = 2 * (2 ^ e * den) := by
  rw [h, Nat.pow_succ]
  ring

theorem quadruple_le_step (den : Nat) {k e : Nat} (h : e + 2 ≤ k) : 4 * (2 ^ e * den) ≤ den * 2 ^ k :=
  calc 4 * (2 ^ e * den) = den * 2 ^ (e + 2) := by rw [Nat.pow_add]; ring
    _ ≤ den * 2 ^ k := Nat.mul_le_mul_left den (Nat.pow_le_pow_right two_pos h)

/-- From half a step above the largest finite value on, the magnitude bits reach those of an infinity. -/
theorem infMag_le_of_overflow (hden : 0 < den) (h : (2 ^ 54 - 1) * 2 ^ 2044 * den ≤ num) :
    infMag ≤ 2 ^ 52 * stepOf num den + stepsOf num den := by
  rw [Nat.mul_assoc] at h
  have hpos : 0 < 2 ^ 2044 * den := by positivity
  have hlt := num_lt_steps (num := num) hden
  have htop : 2045 ≤ stepOf num den := by
    by_contra hlow
    have hstep := step_le_of_le den (show stepOf num den ≤ 2044 by omega)
    omega
  rw [infMag]
  rcases htop.eq_or_lt with heq | hbeyond
  · have hdouble := step_eq_double den heq.symm
    have hup : 2 ^ 53 - 1 < stepsOf num den := lt_roundEven_of_odd (step_pos hden) (by decide) (by omega)
    omega
  · have hsteps := le_stepsOf (num := num) hden (by omega)
    omega

/-- Below that, they stay below. -/
theorem lt_infMag_of_not_overflow (hden : 0 < den) (h : num < (2 ^ 54 - 1) * 2 ^ 2044 * den) :
    2 ^ 52 * stepOf num den + stepsOf num den < infMag := by
  rw [Nat.mul_assoc] at h
  have htop : stepOf num den ≤ 2045 := by
    by_contra hhigh
    have hstep := quadruple_le_step den (show 2044 + 2 ≤ stepOf num den by omega)
    have hle := steps_le_num (num := num) hden (by omega)
    omega
  rw [infMag]
  rcases htop.eq_or_lt with heq | hbelow
  · have hdouble := step_eq_double den heq
    have hsteps : stepsOf num den ≤ 2 ^ 53 - 1 := roundEven_le (step_pos hden) (by omega)
    omega
  · have hsteps := stepsOf_le (num := num) hden
    omega

/-- No value is nearer to a quotient than its rounded number of steps: no whole number of the same steps, and none
below the binade, since the binade's first value is nearer than those. -/
theorem stepsOf_nearest (hden : 0 < den) {r : Nat} (hr : r = stepsOf num den * 2 ^ stepOf num den) (z : F64) :
    ((r : Int) * den - num).natAbs ≤ ((fScaled z : Int) * den - num).natAbs ∧
    (((r : Int) * den - num).natAbs = ((fScaled z : Int) * den - num).natAbs →
      r ≠ fScaled z → stepsOf num den % 2 = 0) := by
  have hsteps (c : Nat) :
      ((c * 2 ^ stepOf num den : Nat) : Int) * den = (c : Int) * (den * 2 ^ stepOf num den : Nat) := by
    push_cast
    ring
  rw [hr, hsteps]
  rcases fScaled_steps_or_lt z (stepOf num den) with ⟨c, hc⟩ | ⟨hstep, hbelow⟩
  · rw [hc, hsteps]
    obtain ⟨hnear, htie⟩ := roundEven_nearest (num := num) (step_pos hden) c
    exact ⟨hnear, fun heq hne => htie heq fun hsame => hne (congrArg (· * 2 ^ stepOf num den) hsame)⟩
  · obtain ⟨hnear, -⟩ := roundEven_nearest (num := num) (step_pos hden) (2 ^ 52)
    have hle := steps_le_num (num := num) hden hstep
    have hlt : fScaled z * den < 2 ^ 52 * (den * 2 ^ stepOf num den) :=
      calc fScaled z * den < 2 ^ 52 * 2 ^ stepOf num den * den := Nat.mul_lt_mul_of_pos_right hbelow hden
        _ = 2 ^ 52 * (den * 2 ^ stepOf num den) := by ring
    rw [← stepsOf] at hnear
    generalize den * 2 ^ stepOf num den = D at *
    omega

theorem fRound_of_overflow (sg : Bool) (hden : 0 < den) (h : (2 ^ 54 - 1) * 2 ^ 2044 * den ≤ num) :
    fRound sg num den = fPack sg infMag := by
  rw [fRound, roundMag_eq, Nat.min_eq_left (infMag_le_of_overflow hden h)]

/-- What is rounded without overflow is finite, has the sign asked for, and is its rounded number of steps. -/
theorem fRound_of_not_overflow (sg : Bool) (hden : 0 < den) (h : num < (2 ^ 54 - 1) * 2 ^ 2044 * den) :
    fIsFinite (fRound sg num den) = true ∧ fSign (fRound sg num den) = sg ∧
    fMag (fRound sg num den) = 2 ^ 52 * stepOf num den + stepsOf num den ∧
    fScaled (fRound sg num den) = stepsOf num den * 2 ^ stepOf num den := by
  have hlt := lt_infMag_of_not_overflow hden h
  have hbits : 2 ^ 52 * stepOf num den + stepsOf num den < 2 ^ 63 := hlt.trans (by decide)
  have hmag := fMag_fPack sg hbits
  rw [fRound, roundMag_eq, Nat.min_eq_right hlt.le]
  exact ⟨by rw [fIsFinite, hmag, decide_eq_true hlt], fSign_fPack sg hbits, hmag,
    fScaled_of_steps (or_iff_not_imp_left.2 (le_stepsOf hden)) (stepsOf_le hden) hmag⟩

/-- A quotient of units rounds to its nearest binary64, ties to even (R147). The operations use it as a rewriting
rule: given as a term, Lean looks for a function behind `NearestEven` and evaluates its `2 ^ 2044`. -/
theorem nearestEven_fRound (sg : Bool) (num : Nat) (hden : 0 < den) : NearestEven sg num den (fRound sg num den) := by
  cases Nat.lt_or_ge num ((2 ^ 54 - 1) * 2 ^ 2044 * den) with
  | inl hbelow =>
    rw [NearestEven, if_neg (not_le.2 hbelow)]
    obtain ⟨hfinite, hsign, hmag, hscaled⟩ := fRound_of_not_overflow sg hden hbelow
    refine ⟨hfinite, hsign, fun z _ => ?_⟩
    obtain ⟨hnear, htie⟩ := stepsOf_nearest hden hscaled z
    refine ⟨hnear, fun heq hne => ?_⟩
    have heven := htie heq hne
    omega
  | inr hover => rw [NearestEven, if_pos hover, fRound_of_overflow sg hden hover]

end Rounding

/-! ## The operations on finite values -/

section Finite

variable {x y : F64}

theorem fIsNaN_of_finite (h : fIsFinite x = true) : fIsNaN x = false :=
  decide_eq_false (not_lt.2 (of_decide_eq_true h).le)

theorem fIsInf_of_finite (h : fIsFinite x = true) : fIsInf x = false :=
  beq_false_of_ne (of_decide_eq_true h).ne

theorem fMag_lt (x : F64) : fMag x < 2 ^ 63 := Nat.mod_lt _ (by decide)

@[simp] theorem fMag_fNeg (x : F64) : fMag (fNeg x) = fMag x := fMag_fPack _ (fMag_lt x)

@[simp] theorem fSign_fNeg (x : F64) : fSign (fNeg x) = !fSign x := fSign_fPack _ (fMag_lt x)

@[simp] theorem fIsFinite_fNeg (x : F64) : fIsFinite (fNeg x) = fIsFinite x := by rw [fIsFinite, fMag_fNeg, fIsFinite]

@[simp] theorem fScaled_fNeg (x : F64) : fScaled (fNeg x) = fScaled x := by rw [fScaled, fMag_fNeg, fScaled]

@[simp] theorem fFixed_fNeg (x : F64) : fFixed (fNeg x) = -fFixed x := by
  rw [fFixed, fFixed, fSign_fNeg, fScaled_fNeg]
  cases fSign x
  · rfl
  · exact (neg_neg _).symm

theorem fUnit_pos : 0 < fUnit := by
  rw [fUnit]
  positivity

theorem fScaled_pos (h : fIsZero x = false) : 0 < fScaled x := by
  have hmag : fMag x ≠ 0 := ne_of_beq_false h
  rw [fScaled]
  split
  · omega
  · positivity

theorem fSum_of_finite (op : Nat) (x0 y0 : F64) (hx : fIsFinite x = true) (hy : fIsFinite y = true) :
    fSum op x0 y0 x y = if fFixed x + fFixed y = 0 then fPack (fSign x && fSign y) 0
      else fRound (fFixed x + fFixed y < 0) (fFixed x + fFixed y).natAbs 1 := by
  simp only [fSum, fIsInf_of_finite hx, fIsInf_of_finite hy, Bool.false_eq_true, if_false]

theorem fAdd_of_finite (hx : fIsFinite x = true) (hy : fIsFinite y = true) : fAdd x y = fSum 0 x y x y := by
  unfold fAdd
  simp only [fIsNaN_of_finite hx, fIsNaN_of_finite hy, Bool.or_self, Bool.false_eq_true, if_false]

theorem fSub_of_finite (hx : fIsFinite x = true) (hy : fIsFinite y = true) : fSub x y = fSum 1 x y x (fNeg y) := by
  unfold fSub
  simp only [fIsNaN_of_finite hx, fIsNaN_of_finite hy, Bool.or_self, Bool.false_eq_true, if_false]

theorem fMul_of_finite (hx : fIsFinite x = true) (hy : fIsFinite y = true) :
    fMul x y = fRound (fSign x != fSign y) (fScaled x * fScaled y) fUnit := by
  unfold fMul
  simp only [fIsNaN_of_finite hx, fIsNaN_of_finite hy, fIsInf_of_finite hx, fIsInf_of_finite hy, Bool.or_self,
    Bool.false_eq_true, if_false]

theorem fDiv_of_finite (hx : fIsFinite x = true) (hy : fIsFinite y = true) (hzero : fIsZero y = false) :
    fDiv x y = fRound (fSign x != fSign y) (fUnit * fScaled x) (fScaled y) := by
  unfold fDiv
  simp only [fIsNaN_of_finite hx, fIsNaN_of_finite hy, fIsInf_of_finite hx, fIsInf_of_finite hy, hzero, Bool.or_self,
    Bool.false_eq_true, if_false]

/-- The exact sum of two finite values is rounded once; an exact zero has the sign that both share, or `+`. -/
theorem fSum_rounds (op : Nat) (x0 y0 : F64) (hx : fIsFinite x = true) (hy : fIsFinite y = true) :
    (fFixed x + fFixed y ≠ 0 →
      NearestEven (decide (fFixed x + fFixed y < 0)) (fFixed x + fFixed y).natAbs 1 (fSum op x0 y0 x y)) ∧
    (fFixed x + fFixed y = 0 → fSum op x0 y0 x y = fPack (fSign x && fSign y) 0) := by
  rw [fSum_of_finite op x0 y0 hx hy]
  refine ⟨fun hne => ?_, fun hzero => if_pos hzero⟩
  simp only [if_neg hne, nearestEven_fRound, Nat.one_pos]

end Finite

/-- Settles O9: a difference is the sum with the second term negated. -/
theorem sumsRoundToNearestEven : Obligations.SumsRoundToNearestEven := by
  intro x y hx hy
  obtain ⟨hsum, hsumZero⟩ := fSum_rounds 0 x y hx hy
  obtain ⟨hdiff, hdiffZero⟩ := fSum_rounds 1 x y hx ((fIsFinite_fNeg y).trans hy)
  rw [fFixed_fNeg, ← sub_eq_add_neg] at hdiff hdiffZero
  rw [fSign_fNeg] at hdiffZero
  rw [fAdd_of_finite hx hy, fSub_of_finite hx hy]
  refine ⟨?_, hsumZero, ?_, hdiffZero⟩ <;> assumption

/-- Settles O10: the exact product and quotient are each rounded once. -/
theorem productsAndQuotientsRoundToNearestEven : Obligations.ProductsAndQuotientsRoundToNearestEven := by
  intro x y hx hy
  rw [fMul_of_finite hx hy]
  refine ⟨?_, fun hzero => ?_⟩
  · simp only [nearestEven_fRound, fUnit_pos]
  · simp only [fDiv_of_finite hx hy hzero, nearestEven_fRound, fScaled_pos hzero]

end Sys2Proof.Machine
end

section
/-! PROOFS. What the word of an operation does where a part of a CSTEP is due: `exec_cases` read the other way. -/

namespace Sys2Proof.Machine

variable {s : State} {p : CstepPart}

/-- The second of two cases, where the first does not hold. -/
theorem next_of_second {c d : Prop} [Decidable c] [Decidable d] {t u : State} (hc : ¬c) (hd : d) :
    (Host.Outcome.next (if c then t else if d then u else s) : Result) = .next u := by
  rw [if_neg hc, if_pos hd]

/-- CONS is at one point of a CSTEP at a time. -/
theorem consAt_unique {q r : ConsPart} (hq : consAt s q) (hr : consAt s r) : q = r := hq.2.symm.trans hr.2

/-- The engine is at one point of an FFT at a time. -/
theorem engineAt_unique {q r : FftPhase} (hq : engineAt s q) (hr : engineAt s r) : q = r := hq.2.symm.trans hr.2

/-- A part that is due is what its operation does: no other part of the same word is due with it (R116). -/
theorem exec_of_due (h : p.due s) : exec p.instr s = .next (p.effect s) := by
  cases p with
  | count => exact next_of_second (fun hwhole => nomatch consAt_unique h hwhole.1) h
  | fftEnd => exact next_of_second (fun hidle => nomatch engineAt_unique h.1 hidle) h
  | bfpassEnd => exact next_of_second (fun hpass => nomatch engineAt_unique h.1 hpass.1) h
  | bflyEnd => exact next_of_second (fun hready => nomatch engineAt_unique h hready.1) h
  | advance => exact next_of_second (fun hready => nomatch engineAt_unique h hready.1) h
  | cchunkEnd => exact next_of_second (fun hchunk => nomatch consAt_unique h hchunk) h
  | fft | bfpass | bfly | product | cchunk => exact congrArg Host.Outcome.next (if_pos h)
  | _ => exact stepIf_of s _ _ h

end Sys2Proof.Machine
end

section
/-! PROOFS. Binary64 on operands that are not finite numbers (R144, R147): NaNs, infinities and zeros. -/

namespace Sys2Proof.Machine

variable {x y : F64}

/-! ## Classes -/

/-- A produced NaN is a NaN, whatever its free sign and payload (U6). -/
@[simp] theorem fIsNaN_fNaN (op : Nat) (x y : F64) : fIsNaN (fNaN op x y) = true := by
  rw [fIsNaN, fNaN, fMag_fPack _ (by rw [infMag]; split <;> omega)]
  exact decide_eq_true (by split <;> omega)

theorem fIsNaN_of_inf (h : fIsInf x = true) : fIsNaN x = false :=
  decide_eq_false (eq_of_beq h).not_gt

theorem fIsFinite_of_zero (h : fIsZero x = true) : fIsFinite x = true :=
  decide_eq_true (by rw [eq_of_beq h, infMag]; omega)

theorem finite_or_inf_or_nan (x : F64) : fIsFinite x = true ∨ fIsInf x = true ∨ fIsNaN x = true := by
  rcases lt_trichotomy (fMag x) infMag with hlt | heq | hgt
  · exact .inl (decide_eq_true hlt)
  · exact .inr (.inl (beq_iff_eq.2 heq))
  · exact .inr (.inr (decide_eq_true hgt))

theorem fPack_infMag (sg : Bool) : fPack sg infMag = if sg then fNegInf else fInf := by cases sg <;> decide

/-! ## Sums and differences -/

theorem fSub_of_nan (h : fIsNaN x = true ∨ fIsNaN y = true) : fSub x y = fNaN 1 x y := by
  unfold fSub
  exact if_pos (Bool.or_eq_true_iff.2 h)

/-- Infinities of opposite signs have no sum. -/
theorem fSum_of_opposite_inf (op : Nat) (x0 y0 : F64) (hx : fIsInf x = true) (hy : fIsInf y = true)
    (hsign : fSign x = !fSign y) : fSum op x0 y0 x y = fNaN op x0 y0 := by
  rw [fSum, if_pos hx, hy, hsign, Bool.true_and, if_pos (by cases fSign y <;> rfl)]

theorem fIsNaN_fAdd_of_opposite_inf (hx : fIsInf x = true) (hy : fIsInf y = true) (hsign : fSign x = !fSign y) :
    fIsNaN (fAdd x y) = true := by
  unfold fAdd
  rw [fIsNaN_of_inf hx, fIsNaN_of_inf hy, if_neg (by decide), fSum_of_opposite_inf _ _ _ hx hy hsign, fIsNaN_fNaN]

/-- An infinity minus itself is a NaN (R143). -/
theorem fIsNaN_fSub_self_of_inf (hx : fIsInf x = true) : fIsNaN (fSub x x) = true := by
  have hneg : fIsInf (fNeg x) = true := by rwa [fIsInf, fMag_fNeg]
  unfold fSub
  rw [fIsNaN_of_inf hx, if_neg (by decide),
    fSum_of_opposite_inf _ _ _ hx hneg (by rw [fSign_fNeg, Bool.not_not]), fIsNaN_fNaN]

/-- A finite value minus itself is `+0.0` (R143). -/
theorem fSub_self_of_finite (hx : fIsFinite x = true) : fSub x x = fZero := by
  obtain ⟨-, -, -, hzero⟩ := sumsRoundToNearestEven x x hx hx
  rw [hzero (sub_self _), Bool.and_not_self]
  rfl

/-! ## Products -/

/-- An infinity times a zero is a NaN (R141). -/
theorem fMul_inf_zero (hx : fIsInf x = true) (hy : fIsZero y = true) : fMul x y = fNaN 2 x y := by
  unfold fMul
  rw [fIsNaN_of_inf hx, fIsNaN_of_finite (fIsFinite_of_zero hy), hx, hy, Bool.or_true]
  rfl

/-- A product whose exact value is at least `2^1024` is the infinity of its sign (R141, R147). -/
theorem fMul_of_overflow (hx : fIsFinite x = true) (hy : fIsFinite y = true)
    (h : 2 ^ 2098 * fUnit ≤ fScaled x * fScaled y) : fMul x y = fPack (fSign x != fSign y) infMag := by
  have hpow : 2 ^ 2098 = 2 ^ 54 * 2 ^ 2044 := by rw [← Nat.pow_add]
  rw [hpow] at h
  rw [fMul_of_finite hx hy]
  exact fRound_of_overflow _ fUnit_pos
    ((Nat.mul_le_mul_right _ (Nat.mul_le_mul_right _ (Nat.sub_le _ _))).trans h)

/-! ## Quotients (R144) -/

theorem fDiv_of_nan (h : fIsNaN x = true ∨ fIsNaN y = true) : fDiv x y = fNaN 3 x y := by
  unfold fDiv
  exact if_pos (Bool.or_eq_true_iff.2 h)

theorem fDiv_zero (hnan : fIsNaN x = false) (hzero : fIsZero x = false) (hy : fIsZero y = true) :
    fDiv x y = fPack (fSign x != fSign y) infMag := by
  have hfinite := fIsFinite_of_zero hy
  unfold fDiv
  rw [hnan, fIsNaN_of_finite hfinite, fIsInf_of_finite hfinite, hy, hzero]
  cases fIsInf x <;> rfl

theorem fDiv_zero_zero (hx : fIsZero x = true) (hy : fIsZero y = true) : fDiv x y = fNaN 3 x y := by
  have hxfinite := fIsFinite_of_zero hx
  have hyfinite := fIsFinite_of_zero hy
  unfold fDiv
  rw [fIsNaN_of_finite hxfinite, fIsNaN_of_finite hyfinite, fIsInf_of_finite hxfinite, fIsInf_of_finite hyfinite,
    hx, hy]
  rfl

theorem fDiv_inf (hx : fIsFinite x = true) (hy : fIsInf y = true) : fDiv x y = fPack (fSign x != fSign y) 0 := by
  unfold fDiv
  rw [fIsNaN_of_finite hx, fIsNaN_of_inf hy, fIsInf_of_finite hx, hy]
  rfl

/-- The divisor of the pipeline is finite and not zero (R13, R144). -/
theorem fOfNat_finite_nonzero {n : Nat} (hpos : 1 ≤ n) (hlt : n < 2 ^ 53) :
    fIsFinite (fOfNat n) = true ∧ fIsZero (fOfNat n) = false := by
  obtain ⟨hfinite, hfixed, -⟩ := integersConvertExactly (n : Int) (by rw [Int.natAbs_natCast]; exact hlt.le)
  refine ⟨hfinite, Bool.eq_false_iff.2 fun hzero => ?_⟩
  have hfixedZero : fFixed (fOfInt n) = 0 := by
    have hmag : fMag (fOfInt n) = 0 := eq_of_beq hzero
    have hscaled : fScaled (fOfInt n) = 0 := by rw [fScaled, hmag]; rfl
    rw [fFixed, hscaled]
    split <;> rfl
  have hunit := fUnit_pos
  rw [hfixedZero] at hfixed
  rcases Int.mul_eq_zero.1 hfixed.symm with h | h <;> omega

end Sys2Proof.Machine
end

section
/-! PROOFS. CMUL, CADD, CSUB and CDIVS (R141 to R144): the whole next state of each use, the corner cases, and the
rules' examples. -/

namespace Sys2Proof.Machine

theorem cAt_of_getElem? {l : List Cplx} {i : Nat} {c : Cplx} (h : l[i]? = some c) : cAt l i = c := by
  rw [cAt, List.getD_eq_getElem?_getD, h, Option.getD_some]

/-- Settles O13: a butterfly's sum and difference are parts of a CSTEP; the corner cases are those of binary64. -/
theorem caddAndCsubResult : Obligations.CaddAndCsubResult := by
  refine ⟨rfl, rfl, fun s u hat hentry => ?_, fun s hat => exec_of_due (p := .difference) hat,
    fIsNaN_fAdd_of_opposite_inf (by decide) (by decide) (by decide), by decide +kernel,
    fIsNaN_fSub_self_of_inf (by decide), fIsNaN_fSub_self_of_inf (by decide), fun _ => fSub_self_of_finite,
    by decide +kernel, by decide +kernel⟩
  refine (exec_of_due (p := .sum) hat).trans ?_
  rw [CstepPart.effect, opBflySum_eq, cAt_of_getElem? hentry]
  rfl

/-- Settles O12: both uses of CMUL are parts of a CSTEP; an infinity times a zero makes the difference a NaN. -/
theorem cmulResult : Obligations.CmulResult := by
  refine ⟨rfl, fun s v hat hdue hentry => ?product, fun s hat => ?advance, ?infTimesZero,
    fun x y hx hy hover => ?overflow, by decide +kernel⟩
  case product =>
    refine (exec_of_due (p := .product) ⟨hat, hdue⟩).trans ?_
    rw [CstepPart.effect, opBflyProduct_eq, cAt_of_getElem? hentry]
    rfl
  case advance =>
    refine (exec_of_due (p := .advance) hat).trans ?_
    rw [CstepPart.effect, opAdvance_eq]
    rfl
  case infTimesZero =>
    have hproduct : fIsNaN (fMul fInf fZero) = true := by
      rw [fMul_inf_zero (by decide) (by decide), fIsNaN_fNaN]
    rw [cMul, fSub_of_nan (.inl hproduct), fIsNaN_fNaN]
  case overflow =>
    rw [fMul_of_overflow hx hy hover, fPack_infMag]
    cases fSign x <;> cases fSign y <;> rfl

/-- Settles O14: a column's division is a part of a CSTEP; the divisor decides the corner cases. -/
theorem cdivsResult : Obligations.CdivsResult := by
  refine ⟨rfl, fun s c hat hbin hdivided hentry => ?divide, fun x hnan hzero => ⟨?byZero, ?byNegZero⟩,
    fun x z hx hz => ?nanOrZeroByZero, fun x z hz => ?byNaN, fun _ _ => fDiv_inf, fun _ => fOfNat_finite_nonzero,
    by decide +kernel, by decide +kernel, ?zeroByZero, by decide +kernel⟩
  case divide =>
    refine (exec_of_due (p := .divide) ⟨hat, hbin, hdivided⟩).trans ?_
    rw [CstepPart.effect, opColumnDivide_eq, cAt_of_getElem? hentry]
    rfl
  case byZero =>
    rw [fDiv_zero hnan hzero (by decide), fPack_infMag, show fSign fZero = false by decide, Bool.bne_false]
  case byNegZero =>
    rw [fDiv_zero hnan hzero (by decide), fPack_infMag, show fSign 0x8000000000000000#64 = true by decide,
      Bool.bne_true]
    cases fSign x <;> rfl
  case nanOrZeroByZero =>
    rcases hx with hnan | hzero
    · rw [fDiv_of_nan (.inl hnan), fIsNaN_fNaN]
    · rw [fDiv_zero_zero hzero hz, fIsNaN_fNaN]
  case byNaN => rw [fDiv_of_nan (.inr hz), fIsNaN_fNaN]
  case zeroByZero => rw [cDivs, fDiv_zero_zero (by decide) (by decide), fIsNaN_fNaN]

end Sys2Proof.Machine
end

section
/-! PROOFS. The order of binary64 values, by their sign and magnitude and, of positive finite ones, by their bits. -/

namespace Sys2Proof.Machine

variable {x y z b : F64}

/-! ## Order -/

theorem fLe_iff : fLe x y = true ↔ fIsNaN x = false ∧ fIsNaN y = false ∧ fKey x ≤ fKey y := by
  rw [fLe, Bool.and_eq_true, Bool.and_eq_true, Bool.not_eq_true', Bool.not_eq_true', decide_eq_true_iff, and_assoc]

theorem fLt_iff : fLt x y = true ↔ fIsNaN x = false ∧ fIsNaN y = false ∧ fKey x < fKey y := by
  rw [fLt, Bool.and_eq_true, Bool.and_eq_true, Bool.not_eq_true', Bool.not_eq_true', decide_eq_true_iff, and_assoc]

theorem fLe_trans (hxy : fLe x y = true) (hyz : fLe y z = true) : fLe x z = true := by
  obtain ⟨hx, -, hlo⟩ := fLe_iff.1 hxy
  obtain ⟨-, hz, hhi⟩ := fLe_iff.1 hyz
  exact fLe_iff.2 ⟨hx, hz, hlo.trans hhi⟩

theorem fLt_of_fLt_of_fLe (hxy : fLt x y = true) (hyz : fLe y z = true) : fLt x z = true := by
  obtain ⟨hx, -, hlo⟩ := fLt_iff.1 hxy
  obtain ⟨-, hz, hhi⟩ := fLe_iff.1 hyz
  exact fLt_iff.2 ⟨hx, hz, hlo.trans_le hhi⟩

theorem fLe_self (h : fIsNaN x = false) : fLe x x = true := fLe_iff.2 ⟨h, h, le_rfl⟩

theorem natAbs_fKey (x : F64) : (fKey x).natAbs = fMag x := by
  rw [fKey]
  split
  · rw [Int.natAbs_neg, Int.natAbs_natCast]
  · rw [Int.natAbs_natCast]

/-- The values of magnitude at most that of `b` are those from `-b` to `b`. -/
theorem fMag_le_iff_between (hb : fIsNaN b = false) (hsign : fSign b = false) :
    fMag x ≤ fMag b ↔ fLe (fNeg b) x = true ∧ fLe x b = true := by
  have hkey : fKey b = fMag b := by rw [fKey, hsign]; rfl
  have hnegKey : fKey (fNeg b) = -fMag b := by rw [fKey, fSign_fNeg, hsign, fMag_fNeg]; rfl
  have hneg : fIsNaN (fNeg b) = false := by rwa [fIsNaN, fMag_fNeg]
  have hxKey := natAbs_fKey x
  rw [fLe_iff, fLe_iff, hkey, hnegKey]
  constructor
  · intro h
    have hx : fIsNaN x = false := decide_eq_false (not_lt.2 (h.trans (not_lt.1 (of_decide_eq_false hb))))
    exact ⟨⟨hneg, hx, by omega⟩, hx, hb, by omega⟩
  · rintro ⟨⟨-, -, hlo⟩, -, -, hhi⟩
    omega

/-- What lies between the largest finite value and its negative is finite. -/
theorem finite_of_between (hlo : fLe (fNeg fLargest) x = true) (hhi : fLe x fLargest = true) : fIsFinite x = true := by
  have hmag := (fMag_le_iff_between (b := fLargest) (by decide) (by decide)).2 ⟨hlo, hhi⟩
  exact decide_eq_true (hmag.trans_lt (by decide))

/-! ## Positive finite values: the order of their bits -/

/-- The positive finite values are the patterns from 1 to the one before `+inf`. -/
abbrev posFinite (x : F64) : Prop := 0 < x.toNat ∧ x.toNat < infMag

theorem fields_of_posFinite (h : posFinite x) : fSign x = false ∧ fIsNaN x = false ∧ fKey x = x.toNat := by
  obtain ⟨-, hhi⟩ := h
  rw [infMag] at hhi
  have hmag : fMag x = x.toNat := Nat.mod_eq_of_lt (by omega)
  have hsign : fSign x = false := decide_eq_false (by omega)
  exact ⟨hsign, decide_eq_false (by rw [hmag, infMag]; omega), by rw [fKey, hsign, hmag]; rfl⟩

theorem posFinite_iff : posFinite x ↔ fIsFinite x = true ∧ fLt fZero x = true := by
  constructor
  · intro h
    obtain ⟨-, hnan, hkey⟩ := fields_of_posFinite h
    obtain ⟨hlo, hhi⟩ := h
    exact ⟨decide_eq_true ((Nat.mod_le _ _).trans_lt hhi), fLt_iff.2 ⟨by decide, hnan, by
      rw [hkey, show fKey fZero = 0 by decide]; omega⟩⟩
  · rintro ⟨hfinite, hlt⟩
    obtain ⟨-, -, hkey⟩ := fLt_iff.1 hlt
    rw [show fKey fZero = 0 by decide, fKey] at hkey
    have hmag : fMag x < infMag := of_decide_eq_true hfinite
    split at hkey
    case isTrue => omega
    case isFalse hsign =>
      have hbits : x.toNat < 2 ^ 63 := not_le.1 (of_decide_eq_false (Bool.eq_false_iff.2 hsign))
      rw [fMag, Nat.mod_eq_of_lt hbits] at hkey hmag
      exact ⟨by omega, hmag⟩

theorem fLe_iff_toNat (hx : posFinite x) (hy : posFinite y) : fLe x y = true ↔ x.toNat ≤ y.toNat := by
  obtain ⟨-, hxnan, hxkey⟩ := fields_of_posFinite hx
  obtain ⟨-, hynan, hykey⟩ := fields_of_posFinite hy
  rw [fLe_iff, and_iff_right hxnan, and_iff_right hynan, hxkey, hykey, Int.ofNat_le]

theorem fLt_iff_toNat (hx : posFinite x) (hy : posFinite y) : fLt x y = true ↔ x.toNat < y.toNat := by
  obtain ⟨-, hxnan, hxkey⟩ := fields_of_posFinite hx
  obtain ⟨-, hynan, hykey⟩ := fields_of_posFinite hy
  rw [fLt_iff, and_iff_right hxnan, and_iff_right hynan, hxkey, hykey, Int.ofNat_lt]

/-- What is positive and at most a finite value is finite. -/
theorem posFinite_of_le (hpos : fLt fZero x = true) (hle : fLe x y = true) (hy : fIsFinite y = true) : posFinite x := by
  obtain ⟨-, -, hxkey⟩ := fLt_iff.1 hpos
  obtain ⟨-, -, hkey⟩ := fLe_iff.1 hle
  have hxmag := natAbs_fKey x
  have hymag := natAbs_fKey y
  have hylt : fMag y < infMag := of_decide_eq_true hy
  rw [show fKey fZero = 0 by decide] at hxkey
  exact posFinite_iff.2 ⟨decide_eq_true (by omega), hpos⟩

end Sys2Proof.Machine
end

section
/-! PROOFS. CABS, CARG and the logarithm: NUM within its stated limits (R145, R146, R148, U3 to U5). -/

namespace Sys2Proof.Machine

variable {x y z a b : F64}

/-! ## `NUM.hypot` (U3) -/

theorem numHypot_of_inf (h : fIsInf x = true ∨ fIsInf y = true) : numHypot x y = fInf := by
  unfold numHypot
  exact if_pos (Bool.or_eq_true_iff.2 h)

theorem numHypot_of_nan (hx : fIsInf x = false) (hy : fIsInf y = false) (h : fIsNaN x = true ∨ fIsNaN y = true) :
    numHypot x y = fNaN 4 x y := by
  unfold numHypot
  rw [hx, hy, if_neg (by decide), if_pos (Bool.or_eq_true_iff.2 h)]

theorem numHypot_of_zeros (hx : fIsZero x = true) (hy : fIsZero y = true) : numHypot x y = fZero := by
  have hxfinite := fIsFinite_of_zero hx
  have hyfinite := fIsFinite_of_zero hy
  unfold numHypot
  rw [fIsNaN_of_finite hxfinite, fIsNaN_of_finite hyfinite, fIsInf_of_finite hxfinite, fIsInf_of_finite hyfinite,
    hx, hy]
  rfl

/-- The fallback of `hypot` is allowed: the greater of two finite magnitudes. -/
theorem hypotAllowed_of_fallback (hx : fIsFinite x = true) (hy : fIsFinite y = true) :
    hypotAllowed x y (fPack false (max (fMag x) (fMag y))) = true := by
  have hmag : max (fMag x) (fMag y) < infMag := max_lt (of_decide_eq_true hx) (of_decide_eq_true hy)
  have hbits : max (fMag x) (fMag y) < 2 ^ 63 := hmag.trans (by decide)
  rw [hypotAllowed, fIsFinite, fMag_fPack _ hbits, fSign_fPack _ hbits, decide_eq_true hmag]
  rfl

/-- Of finite values `hypot` answers within its limits: finite and not negative, or `+inf` where the norm is too
large. -/
theorem hypotAllowed_numHypot (hx : fIsFinite x = true) (hy : fIsFinite y = true) :
    hypotAllowed x y (numHypot x y) = true := by
  unfold numHypot
  rw [fIsNaN_of_finite hx, fIsNaN_of_finite hy, fIsInf_of_finite hx, fIsInf_of_finite hy, if_neg (by decide),
    if_neg (by decide)]
  split
  case isTrue => exact Bool.or_eq_true_iff.2 (.inl (by decide))
  case isFalse =>
    split
    case isTrue hallowed => exact hallowed
    case isFalse => exact hypotAllowed_of_fallback hx hy

theorem hypotAllowed_iff : hypotAllowed x y z = true ↔
    (fIsFinite z = true ∧ fSign z = false) ∨ (z = fInf ∧ normOverflows x y = true) := by
  rw [hypotAllowed, Bool.or_eq_true, Bool.and_eq_true, Bool.and_eq_true, Bool.not_eq_true', beq_iff_eq]

/-- `hypot` is a NaN or not negative. -/
theorem numHypot_nan_or_nonneg (x y : F64) : fIsNaN (numHypot x y) = true ∨ fSign (numHypot x y) = false := by
  by_cases hinf : fIsInf x = true ∨ fIsInf y = true
  · rw [numHypot_of_inf hinf]
    exact .inr (by decide)
  · obtain ⟨hx, hy⟩ := not_or.1 hinf
    by_cases hnan : fIsNaN x = true ∨ fIsNaN y = true
    · rw [numHypot_of_nan (Bool.eq_false_iff.2 hx) (Bool.eq_false_iff.2 hy) hnan, fIsNaN_fNaN]
      exact .inl rfl
    · obtain ⟨hxnan, hynan⟩ := not_or.1 hnan
      have hxfinite := (finite_or_inf_or_nan x).resolve_right (not_or.2 ⟨hx, hxnan⟩)
      have hyfinite := (finite_or_inf_or_nan y).resolve_right (not_or.2 ⟨hy, hynan⟩)
      rcases hypotAllowed_iff.1 (hypotAllowed_numHypot hxfinite hyfinite) with ⟨-, hsign⟩ | ⟨heq, -⟩
      · exact .inr hsign
      · rw [heq]
        exact .inr (by decide)

theorem numHypot_finite (hx : fIsFinite x = true) (hy : fIsFinite y = true)
    (hnorm : fScaled x ^ 2 + fScaled y ^ 2 ≤ ((2 ^ 53 - 1) * 2 ^ 2045) ^ 2) : fIsFinite (numHypot x y) = true := by
  rcases hypotAllowed_iff.1 (hypotAllowed_numHypot hx hy) with ⟨hfinite, -⟩ | ⟨-, hover⟩
  · exact hfinite
  · exact absurd (of_decide_eq_true hover) (not_lt.2 hnorm)

/-! ## `NUM.atan2` (U4) -/

/-- `atan2` is a NaN or in `[-pi, pi]`. -/
theorem numAtan2_range (y x : F64) : fIsNaN (numAtan2 y x) = true ∨
    (fLe 0xC00921FB54442D18#64 (numAtan2 y x) = true ∧ fLe (numAtan2 y x) 0x400921FB54442D18#64 = true) := by
  rw [show 0xC00921FB54442D18#64 = fNeg fPi by decide, show 0x400921FB54442D18#64 = fPi from rfl,
    ← fMag_le_iff_between (b := fPi) (by decide) (by decide)]
  unfold numAtan2
  split
  · exact .inr (by decide)
  · split
    · exact .inr (by decide)
    · split
      case isTrue h => exact (Bool.or_eq_true_iff.1 h).imp id of_decide_eq_true
      case isFalse => exact .inr (by decide)

theorem numAtan2_zero (hfinite : fIsFinite x = true) (hpos : fLt fZero x = true) : numAtan2 fZero x = fZero := by
  unfold numAtan2
  exact if_pos ⟨rfl, hpos, hfinite⟩

theorem numAtan2_of_zero (hfinite : fIsFinite y = true) (hpos : fLt fZero y = true) (hx : fIsZero x = true) :
    numAtan2 y x = fHalfPi := by
  have hy : y ≠ fZero := by rintro rfl; exact absurd hpos (by decide)
  unfold numAtan2
  rw [if_neg fun h => hy h.1, if_pos ⟨hx, hpos, hfinite⟩]

/-! ## The rising function between two bounds (U5) -/

theorem clampTo_between (hab : fLe a b = true) (v : F64) :
    fLe a (clampTo a b v) = true ∧ fLe (clampTo a b v) b = true := by
  obtain ⟨ha, hb, -⟩ := fLe_iff.1 hab
  rw [clampTo]
  split
  case isTrue hlo =>
    split
    case isTrue hhi => exact ⟨hlo, hhi⟩
    case isFalse => exact ⟨hab, fLe_self hb⟩
  case isFalse => exact ⟨fLe_self ha, hab⟩

section Rising

variable (f : F64 → F64)

theorem risingAt_between (x k lo : Nat) (hab : fLe a b = true) :
    fLe a (risingAt f x k lo a b) = true ∧ fLe (risingAt f x k lo a b) b = true := by
  induction k generalizing lo a b with
  | zero => exact clampTo_between hab _
  | succ k ih =>
    obtain ⟨hlo, hhi⟩ := clampTo_between hab (f (BitVec.ofNat 64 (lo + 2 ^ k)))
    rw [risingAt]
    split
    · exact ⟨(ih lo hlo).1, fLe_trans (ih lo hlo).2 hhi⟩
    · exact ⟨fLe_trans hlo (ih _ hhi).1, (ih _ hhi).2⟩

/-- Two places in the same half rise there; of two places in different halves the middle value lies between. -/
theorem risingAt_mono {x y : Nat} (hxy : x ≤ y) (k lo : Nat) (hab : fLe a b = true) :
    fLe (risingAt f x k lo a b) (risingAt f y k lo a b) = true := by
  induction k generalizing lo a b with
  | zero =>
    obtain ⟨-, hnan, -⟩ := fLe_iff.1 (clampTo_between hab (f (BitVec.ofNat 64 lo))).1
    exact fLe_self hnan
  | succ k ih =>
    obtain ⟨hlo, hhi⟩ := clampTo_between hab (f (BitVec.ofNat 64 (lo + 2 ^ k)))
    rw [risingAt, risingAt]
    by_cases hy : y < lo + 2 ^ k
    · rw [if_pos hy, if_pos (hxy.trans_lt hy)]
      exact ih lo hlo
    · rw [if_neg hy]
      split
      · exact fLe_trans (risingAt_between f x k lo hlo).2 (risingAt_between f y k _ hhi).1
      · exact ih _ hhi

end Rising

/-! ## `NUM.log` (U5) -/

section Log

variable (base : LogBase)

theorem numLog_zero : numLog base fZero = fNegInf := by unfold numLog; rfl

theorem numLog_one : numLog base fOne = fZero := by unfold numLog; rfl

theorem numLog_inf : numLog base fInf = fInf := by unfold numLog; rfl

theorem numLog_of_nan (h : fIsNaN x = true) : numLog base x = fNaN 5 x x := by
  unfold numLog
  exact if_pos h

theorem posFinite_one : posFinite fOne := by decide

/-- Of a positive finite value but `1.0` the logarithm is one of the two rising functions. -/
theorem numLog_of_posFinite (h : posFinite x) (hone : x.toNat ≠ fOne.toNat) : numLog base x =
    if x.toNat < fOne.toNat then risingAt (Config.freeLog base) x.toNat 62 0 (fNeg fLargest) fZero
    else risingAt (Config.freeLog base) x.toNat 62 fOne.toNat fZero fLargest := by
  obtain ⟨hsign, hnan, -⟩ := fields_of_posFinite h
  have hzero : x ≠ fZero := by rintro rfl; exact absurd h (by decide)
  have hinf : x ≠ fInf := by rintro rfl; exact absurd h (by decide)
  have hne : x ≠ fOne := fun heq => hone (congrArg BitVec.toNat heq)
  have hlt := fLt_iff_toNat h posFinite_one
  unfold numLog
  rw [hnan, hsign, if_neg Bool.false_ne_true, if_neg hzero, if_neg hne, if_neg hinf, if_neg Bool.false_ne_true]
  exact if_congr hlt rfl rfl

theorem numLog_below_one (h : posFinite x) (hlt : x.toNat < fOne.toNat) :
    numLog base x = risingAt (Config.freeLog base) x.toNat 62 0 (fNeg fLargest) fZero := by
  rw [numLog_of_posFinite base h hlt.ne, if_pos hlt]

theorem numLog_above_one (h : posFinite x) (hgt : fOne.toNat < x.toNat) :
    numLog base x = risingAt (Config.freeLog base) x.toNat 62 fOne.toNat fZero fLargest := by
  rw [numLog_of_posFinite base h hgt.ne', if_neg hgt.not_gt]

theorem fLe_negLargest_zero : fLe (fNeg fLargest) fZero = true := by decide

theorem fLe_zero_largest : fLe fZero fLargest = true := by decide

/-- Up to `1.0` the logarithm is not positive. -/
theorem numLog_to_one (h : posFinite x) (hle : x.toNat ≤ fOne.toNat) :
    fLe (fNeg fLargest) (numLog base x) = true ∧ fLe (numLog base x) fZero = true := by
  rcases hle.lt_or_eq with hlt | heq
  · rw [numLog_below_one base h hlt]
    exact risingAt_between _ _ _ _ fLe_negLargest_zero
  · rw [BitVec.eq_of_toNat_eq heq, numLog_one]
    exact ⟨fLe_negLargest_zero, by decide⟩

/-- From `1.0` on the logarithm is not negative. -/
theorem numLog_from_one (h : posFinite x) (hge : fOne.toNat ≤ x.toNat) :
    fLe fZero (numLog base x) = true ∧ fLe (numLog base x) fLargest = true := by
  rcases hge.lt_or_eq with hgt | heq
  · rw [numLog_above_one base h hgt]
    exact risingAt_between _ _ _ _ fLe_zero_largest
  · rw [← BitVec.eq_of_toNat_eq heq, numLog_one]
    exact ⟨by decide, fLe_zero_largest⟩

theorem numLog_finite (h : posFinite x) : fIsFinite (numLog base x) = true := by
  rcases le_total x.toNat fOne.toNat with hle | hge
  · obtain ⟨hlo, hhi⟩ := numLog_to_one base h hle
    exact finite_of_between hlo (fLe_trans hhi fLe_zero_largest)
  · obtain ⟨hlo, hhi⟩ := numLog_from_one base h hge
    exact finite_of_between (fLe_trans fLe_negLargest_zero hlo) hhi

/-- The logarithm never decreases: below `1.0`, above it, and across it, where zero lies between. -/
theorem numLog_mono (hx : posFinite x) (hy : posFinite y) (hxy : x.toNat ≤ y.toNat) :
    fLe (numLog base x) (numLog base y) = true := by
  rcases Nat.lt_or_ge y.toNat fOne.toNat with hybelow | hyfrom
  · rw [numLog_below_one base hx (hxy.trans_lt hybelow), numLog_below_one base hy hybelow]
    exact risingAt_mono _ hxy _ _ fLe_negLargest_zero
  · rcases Nat.lt_or_ge fOne.toNat x.toNat with hxabove | hxto
    · rw [numLog_above_one base hx hxabove, numLog_above_one base hy (hxabove.trans_le hxy)]
      exact risingAt_mono _ hxy _ _ fLe_zero_largest
    · exact fLe_trans (numLog_to_one base hx hxto).2 (numLog_from_one base hy hyfrom).1

end Log

/-! ## Ten times a value (R228; log entry 31) -/

/-- A bound on the bits below the sign is a bound on the units. -/
theorem fScaled_le {m e : Nat} (hlo : 2 ^ 52 ≤ m) (hhi : m < 2 ^ 53) (hx : fMag x ≤ 2 ^ 52 * e + m) :
    fScaled x ≤ m * 2 ^ e := by
  rw [fScaled]
  split
  case isTrue hsub =>
    calc fMag x % 2 ^ 52 ≤ m := by omega
      _ ≤ m * 2 ^ e := Nat.le_mul_of_pos_right _ (by positivity)
  case isFalse hnormal =>
    rcases Nat.lt_or_ge (fMag x / 2 ^ 52 - 1) e with hbelow | hsame
    · calc (2 ^ 52 + fMag x % 2 ^ 52) * 2 ^ (fMag x / 2 ^ 52 - 1)
          ≤ 2 ^ 53 * 2 ^ (fMag x / 2 ^ 52 - 1) := Nat.mul_le_mul_right _ (by omega)
        _ = 2 ^ 52 * 2 ^ (fMag x / 2 ^ 52 - 1 + 1) := by rw [← Nat.pow_add, ← Nat.pow_add]; congr 1; omega
        _ ≤ m * 2 ^ e := Nat.mul_le_mul hlo (Nat.pow_le_pow_right two_pos hbelow)
    · have hexp : fMag x / 2 ^ 52 - 1 = e := by omega
      rw [hexp]
      exact Nat.mul_le_mul_right _ (by omega)

theorem fScaled_fTen : fScaled fTen = 10 * fUnit := by
  have hscaled : fScaled fTen = 5 * 2 ^ 50 * 2 ^ 1025 := fScaled_of_fMag (by decide) (by decide) (by decide)
  have hpow : 2 ^ 1074 = 2 ^ 49 * 2 ^ 1025 := by rw [← Nat.pow_add]
  rw [hscaled, fUnit, hpow]
  generalize 2 ^ 1025 = u
  omega

/-- Ten times a value of at most a tenth of the largest finite one does not overflow (log entry 31). -/
theorem fMul_fTen_finite (h : fMag x ≤ 0x7FB9999999999999) : fIsFinite (fMul fTen x) = true := by
  have hfinite : fIsFinite x = true := decide_eq_true (by rw [infMag]; omega)
  have hscaled : fScaled x ≤ 0x19999999999999 * 2 ^ 2042 := fScaled_le (by decide) (by decide) (by omega)
  have hpow : 2 ^ 2044 = 2 ^ 2 * 2 ^ 2042 := by rw [← Nat.pow_add]
  have hunits : 10 * fScaled x < (2 ^ 54 - 1) * 2 ^ 2044 := by
    have hpos : 0 < 2 ^ 2042 := by positivity
    rw [hpow]
    generalize 2 ^ 2042 = u at *
    omega
  have hproduct : fScaled fTen * fScaled x < (2 ^ 54 - 1) * 2 ^ 2044 * fUnit :=
    calc fScaled fTen * fScaled x = 10 * fScaled x * fUnit := by rw [fScaled_fTen]; ring
      _ < (2 ^ 54 - 1) * 2 ^ 2044 * fUnit := Nat.mul_lt_mul_of_pos_right hunits fUnit_pos
  rw [fMul_of_finite (by decide) hfinite]
  exact (fRound_of_not_overflow _ fUnit_pos hproduct).1

/-! ## The statement -/

/-- Settles O15: CABS and CARG are parts of a CSTEP; each function of NUM is within its limits. -/
theorem magnitudePhaseAndLogarithm : Obligations.MagnitudePhaseAndLogarithm := by
  refine ⟨rfl, rfl, fun s hunit => exec_of_due (p := .carg) hunit, fun s hat hbin hdivided => ?cabs,
    fun x y => ⟨numHypot_nan_or_nonneg x y, numHypot_of_zeros, numHypot_of_inf, fun hx hy hnan => ?hypotNaN,
      numHypot_finite⟩,
    fun y x => ⟨numAtan2_range y x, numAtan2_zero, numAtan2_of_zero⟩,
    fun base => ⟨numLog_zero base, numLog_one base, numLog_inf base, fun x hnan => ?logNaN,
      fun x hfinite hpos => numLog_finite base (posFinite_iff.2 ⟨hfinite, hpos⟩), fun _ => fMul_fTen_finite,
      fun x y hfinite hpos hle => ?logMono⟩⟩
  case cabs =>
    refine ⟨meanMagnitude s.hw.accMode s.cu.r, exec_of_due (p := .magnitude) ⟨hat, hbin, hdivided⟩, ?_, ?_⟩
    · intro hmode
      rw [hmode, meanMagnitude, cAbs]
    · intro hmode
      rw [hmode, meanMagnitude]
  case hypotNaN => rw [numHypot_of_nan hx hy hnan, fIsNaN_fNaN]
  case logNaN => rw [numLog_of_nan base hnan, fIsNaN_fNaN]
  case logMono =>
    have hx : posFinite x := posFinite_of_le hpos hle hfinite
    have hy : posFinite y := posFinite_iff.2 ⟨hfinite, fLt_of_fLt_of_fLe hpos hle⟩
    exact numLog_mono base hx hy ((fLe_iff_toNat hx hy).1 hle)

end Sys2Proof.Machine
end

section
/-! PROOFS. The entries of a buffer, and what a butterfly does to them (R164). -/

namespace Sys2Proof.Machine

-- The kernel evaluations of the text above, each of which holds a thread of its own in flight, end first.
set_option Elab.async false

variable {a : List Cplx} {i j : Nat}

theorem getElem?_eq_cAt (h : i < a.length) : a[i]? = some (cAt a i) := by
  rw [cAt, List.getD_eq_getElem?_getD, List.getElem?_eq_getElem h, Option.getD_some]

/-- Both entries of a butterfly are those before it combined; the others are kept. -/
theorem getElem?_butterfly (hij : i ≠ j) (hi : i < a.length) (hj : j < a.length) (w : Cplx) :
    (butterfly a i j w)[i]? = some (cAdd (cAt a i) (cMul w (cAt a j))) ∧
    (butterfly a i j w)[j]? = some (cSub (cAt a i) (cMul w (cAt a j))) ∧
    ∀ x, x ≠ i → x ≠ j → (butterfly a i j w)[x]? = a[x]? := by
  rw [butterfly]
  refine ⟨?_, ?_, fun x hxi hxj => ?_⟩
  · rw [List.getElem?_set_ne hij.symm, List.getElem?_set_self hi]
  · rw [List.getElem?_set_self (by rwa [List.length_set])]
  · rw [List.getElem?_set_ne hxj.symm, List.getElem?_set_ne hxi.symm]

theorem cAt_butterfly (hij : i ≠ j) (hi : i < a.length) (hj : j < a.length) (w : Cplx) :
    cAt (butterfly a i j w) i = cAdd (cAt a i) (cMul w (cAt a j)) ∧
    cAt (butterfly a i j w) j = cSub (cAt a i) (cMul w (cAt a j)) ∧
    ∀ x, x ≠ i → x ≠ j → cAt (butterfly a i j w) x = cAt a x := by
  obtain ⟨hfirst, hsecond, hothers⟩ := getElem?_butterfly hij hi hj w
  refine ⟨cAt_of_getElem? hfirst, cAt_of_getElem? hsecond, fun x hxi hxj => ?_⟩
  rw [cAt, List.getD_eq_getElem?_getD, hothers x hxi hxj, ← List.getD_eq_getElem?_getD, cAt]

end Sys2Proof.Machine
end

section
/-! PROOFS. BITREV (R162): the reversal of the low bits is an involution, and exchanging each pair once permutes the
buffer by it. -/

namespace Sys2Proof.Machine

variable {m i n x : Nat}

/-! ## The reversal of the low bits -/

theorem revBits_lt (m i : Nat) : revBits m i < 2 ^ m := by
  induction m generalizing i with
  | zero => exact Nat.one_pos
  | succ m ih =>
    have hrest := ih (i / 2)
    have hbit : i % 2 * 2 ^ m ≤ 1 * 2 ^ m := Nat.mul_le_mul_right _ (by omega)
    rw [revBits, Nat.pow_succ]
    omega

/-- The lowest bit becomes the highest; the others are reversed below it. -/
theorem testBit_revBits_succ (m i q : Nat) :
    (revBits (m + 1) i).testBit q = if q < m then (revBits m (i / 2)).testBit q else (i % 2).testBit (q - m) := by
  rw [revBits, Nat.mul_comm, Nat.testBit_two_pow_mul_add _ (revBits_lt m _)]

theorem testBit_revBits {q : Nat} (hq : q < m) : (revBits m i).testBit (m - 1 - q) = i.testBit q := by
  induction m generalizing i q with
  | zero => exact absurd hq (Nat.not_lt_zero q)
  | succ m ih =>
    rw [testBit_revBits_succ]
    cases q with
    | zero => rw [if_neg (by omega), show m + 1 - 1 - 0 - m = 0 by omega, Nat.testBit_mod_two_pow (j := 1)]; simp
    | succ q =>
      rw [if_pos (by omega), show m + 1 - 1 - (q + 1) = m - 1 - q by omega, ih (Nat.lt_of_succ_lt_succ hq),
        Nat.testBit_div_two]

theorem revBits_revBits (h : i < 2 ^ m) : revBits m (revBits m i) = i := by
  refine Nat.eq_of_testBit_eq fun q => ?_
  rcases Nat.lt_or_ge q m with hq | hq
  · have hmirror : m - 1 - (m - 1 - q) = q := by omega
    calc (revBits m (revBits m i)).testBit q
        = (revBits m i).testBit (m - 1 - q) := by
          rw [← testBit_revBits (i := revBits m i) (show m - 1 - q < m by omega), hmirror]
      _ = i.testBit q := testBit_revBits hq
  · have hpow : 2 ^ m ≤ 2 ^ q := Nat.pow_le_pow_right two_pos hq
    rw [Nat.testBit_lt_two_pow ((revBits_lt m _).trans_le hpow), Nat.testBit_lt_two_pow (h.trans_le hpow)]

/-! ## The exchanges -/

theorem getElem?_swapAt {a : List Cplx} {i j : Nat} (hi : i < a.length) (hj : j < a.length) (x : Nat) :
    (swapAt a i j)[x]? = if x = j then a[i]? else if x = i then a[j]? else a[x]? := by
  rw [swapAt, List.getElem?_set, List.getElem?_set, List.length_set, ← getElem?_eq_cAt hi, ← getElem?_eq_cAt hj]
  simp only [hi, hj, if_true, eq_comm]

theorem length_bitrevSteps (m n : Nat) (a : List Cplx) : ((List.range n).foldl (bitrevStep m) a).length = a.length :=
  List.foldlRecOn (motive := fun b : List Cplx => b.length = a.length) _ _ rfl fun b hb _ _ =>
    (length_bitrevStep m b _).trans hb

/-- After the turns below `n`, just the pairs with an index below `n` are exchanged. -/
theorem getElem?_bitrevSteps {a : List Cplx} (hlen : a.length = 2 ^ m) (hn : n ≤ 2 ^ m) (hx : x < 2 ^ m) :
    ((List.range n).foldl (bitrevStep m) a)[x]? = if x < n ∨ revBits m x < n then a[revBits m x]? else a[x]? := by
  induction n generalizing x with
  | zero => rfl
  | succ n ih =>
    replace ih {y : Nat} := ih (x := y) (by omega)
    have hkeep := (length_bitrevSteps m n a).trans hlen
    have hnlt : n < 2 ^ m := hn
    have hrev := revBits_lt m n
    have hback := revBits_revBits hnlt
    have hxback := revBits_revBits hx
    rw [List.range_succ, List.foldl_append, List.foldl_cons, List.foldl_nil, bitrevStep]
    by_cases hup : n < revBits m n
    · rw [if_pos hup, getElem?_swapAt (by omega) (by omega)]
      split
      case isTrue heq => rw [heq, hback, ih hnlt, if_neg (by omega), if_pos (by omega)]
      case isFalse hne =>
        split
        case isTrue heq => rw [heq, ih hrev, hback, if_neg (by omega), if_pos (by omega)]
        case isFalse hne' =>
          have hrevNe : revBits m x ≠ n := fun heq => hne (heq ▸ hxback.symm)
          rw [ih hx]
          exact if_congr (by omega) rfl rfl
    · rw [if_neg hup, ih hx]
      by_cases heq : revBits m x = x
      · rw [heq, ite_self, ite_self]
      · have hpair : x = n → revBits m x < n := by rintro rfl; omega
        have hpair' : revBits m x = n → x < n := by rintro rfl; omega
        exact if_congr (by omega) rfl rfl

/-- Settles O16: BITREV's turns exchange every pair. -/
theorem bitrevPermutes : Obligations.BitrevPermutes := by
  refine ⟨rfl, fun m i k _ hk => ⟨revBits_lt m i, testBit_revBits hk⟩, fun s hat hlen => ?permutes,
    fun a => ⟨rfl, rfl⟩, by decide, by decide, fun x y z w => rfl⟩
  case permutes =>
    refine ⟨bitrevBuf s.hw.log2Chunk s.spectral.buf, exec_of_due (p := .bitrev) hat,
      (length_bitrevBuf _ _).trans hlen, fun i hi => ?_⟩
    rw [bitrevBuf, getElem?_bitrevSteps hlen le_rfl hi, if_pos (.inl hi)]

end Sys2Proof.Machine
end

section
/-! PROOFS. Lists of operations every one of which is taken (R116): running two lists one after the other, and one
list several times. -/

namespace Sys2Proof.Machine

variable {s t u : State} {is js : List Instr}

/-- The operations, every one of them taken, lead from `s` to `t`. -/
def TakesTo (is : List Instr) (s t : State) : Prop := runOps is s = .next t ∧ allTaken is s

theorem takesTo_nil (s : State) : TakesTo [] s s := ⟨rfl, trivial⟩

theorem TakesTo.append (h : TakesTo is s t) (h' : TakesTo js t u) : TakesTo (is ++ js) s u := by
  induction is generalizing s with
  | nil =>
    cases h.1
    exact h'
  | cons i is ih =>
    obtain ⟨hrun, v, hexec, hne, htaken⟩ := h
    rw [runOps, hexec] at hrun
    obtain ⟨hrun', htaken'⟩ := ih ⟨hrun, htaken⟩
    refine ⟨?_, v, hexec, hne, htaken'⟩
    rw [List.cons_append, runOps, hexec]
    exact hrun'

/-- A part of an FFT, taken where it is due, is taken: it moves the engine on. -/
theorem takesTo_part {p : CstepPart} (hdue : p.due s) (hmoves : (p.effect s).fft ≠ s.fft) :
    TakesTo [p.instr] s (p.effect s) := by
  have hexec := exec_of_due hdue
  exact ⟨by rw [runOps, hexec]; rfl, _, hexec, fun heq => hmoves (congrArg State.fft heq), trivial⟩

/-- A part that moves the engine from one phase to another. -/
theorem takesTo_phase {p : CstepPart} {x y : FftPhase} (hdue : p.due s) (hfrom : s.fft.phase = x)
    (hto : (p.effect s).fft.phase = y) (hxy : x ≠ y) : TakesTo [p.instr] s (p.effect s) :=
  takesTo_part hdue fun heq => hxy (hfrom.symm.trans ((congrArg FftTemps.phase heq).symm.trans hto))

theorem timesOps_succ (n : Nat) (is : List Instr) : timesOps (n + 1) is = timesOps n is ++ is := by
  rw [timesOps, timesOps, List.replicate_succ', List.flatten_append, List.flatten_singleton]

theorem timesOps_mul (m n : Nat) (is : List Instr) : timesOps (m * n) is = timesOps m (timesOps n is) := by
  induction m with
  | zero => rw [Nat.zero_mul]; rfl
  | succ m ih =>
    rw [timesOps_succ, ← ih, timesOps, timesOps, timesOps, ← List.flatten_append, List.replicate_append_replicate,
      Nat.succ_mul]

/-- A list of operations that leads from each claim of a sequence to the next, taken `n` times, leads to the `n`-th. -/
theorem takesTo_timesOps {P : Nat → State → Prop} {n : Nat}
    (hstep : ∀ i < n, ∀ t, P i t → ∃ u, TakesTo is t u ∧ P (i + 1) u) (h : P 0 s) :
    ∃ u, TakesTo (timesOps n is) s u ∧ P n u := by
  induction n with
  | zero => exact ⟨s, takesTo_nil s, h⟩
  | succ n ih =>
    obtain ⟨t, hruns, ht⟩ := ih fun i hi => hstep i (hi.trans n.lt_succ_self)
    obtain ⟨u, hlast, hu⟩ := hstep n n.lt_succ_self t ht
    rw [timesOps_succ]
    exact ⟨u, hruns.append hlast, hu⟩

end Sys2Proof.Machine
end

section
/-! PROOFS. TWID and BFLY (R163, R164): the pass twiddle within the limits of NUM, and one butterfly's two entries. -/

namespace Sys2Proof.Machine

variable {s : State}

/-! ## The pass twiddle -/

theorem passLegal_two_pow {n p : Nat} (hp : 1 ≤ p) (hle : 2 ^ p ≤ n) : passLegal n (2 ^ p) :=
  ⟨by rw [Nat.log2_two_pow], Nat.pow_le_pow_right (n := 2) (i := 1) two_pos hp, hle⟩

/-- A value within the limits, or the zero that replaces one outside them. -/
theorem inUnitBall_fallback (x : F64) : inUnitBall (if inUnitBall x then x else fZero) = true := by
  split
  · assumption
  · decide

theorem inUnitBall_numCos (x : F64) : inUnitBall (numCos x) = true := by
  unfold numCos
  split
  · decide
  · exact inUnitBall_fallback _

theorem inUnitBall_numSin (x : F64) : inUnitBall (numSin x) = true := by
  unfold numSin
  exact inUnitBall_fallback _

/-- Settles O17: TWID is a part of a CSTEP; cosine and sine are within their limits. -/
theorem twidResult : Obligations.TwidResult := by
  refine ⟨rfl, fun s p hat hp hle hl => ?twid,
    fun x => ⟨Bool.and_eq_true_iff.1 (inUnitBall_numCos x), Bool.and_eq_true_iff.1 (inUnitBall_numSin x)⟩, ?cosZero⟩
  case twid =>
    have hlegal : passLegal s.hw.chunk s.fft.l := hl ▸ passLegal_two_pow hp (Nat.pow_le_pow_right two_pos hle)
    refine (exec_of_due (p := .twid) ⟨hat, hlegal⟩).trans ?_
    rw [CstepPart.effect, opTwid_eq, hl]
    rfl
  case cosZero =>
    unfold numCos
    rfl

/-! ## One butterfly -/

/-- The parts of a butterfly leave its entries, and their operands and difference in the complex unit (R164). -/
theorem butterflyParts_eq (s : State) :
    (opBflyDifference (opBflySum (opBflyProduct s))).fftTo .advance =
      (opBfly s).setCu { s.cu with
        a := cAt s.spectral.buf (bflyP s), b := cMul s.fft.w (cAt s.spectral.buf (bflyQ s))
        r := cSub (cAt s.spectral.buf (bflyP s)) (cMul s.fft.w (cAt s.spectral.buf (bflyQ s))) } := by
  rw [opBflyDifference_eq, opBflySum_eq, opBflyProduct_eq, opBfly_eq]
  rfl

/-- A butterfly taken part by part: its CMUL, CADD and CSUB, and its own word (R116, R164). -/
theorem takesTo_butterflyParts (hat : engineAt s .ready) (hdue : bflyDue s) :
    ∃ c : ComplexUnit, TakesTo [.cmul, .cadd, .csub, .bfly] s ((opBfly s).setCu c) := by
  have hproduct : TakesTo [.cmul] s (opBflyProduct s) :=
    takesTo_phase (p := .product) ⟨hat, hdue⟩ hat.2 rfl nofun
  have hsum : TakesTo [.cadd] (opBflyProduct s) (opBflySum (opBflyProduct s)) :=
    takesTo_phase (p := .sum) ⟨hat.1, rfl⟩ rfl rfl nofun
  have hdifference : TakesTo [.csub] (opBflySum (opBflyProduct s)) (opBflyDifference (opBflySum (opBflyProduct s))) :=
    takesTo_phase (p := .difference) ⟨hat.1, rfl⟩ rfl rfl nofun
  have hend := takesTo_phase (s := opBflyDifference (opBflySum (opBflyProduct s))) (p := .bflyEnd) ⟨hat.1, rfl⟩ rfl rfl
    nofun
  rw [CstepPart.effect, butterflyParts_eq] at hend
  exact ⟨_, hproduct.append (hsum.append (hdifference.append hend))⟩

/-- Settles O18: a butterfly is a part of a CSTEP on two different entries, whole or part by part. -/
theorem bflyResult : Obligations.BflyResult := by
  refine ⟨rfl, fun s hat hdue hlen => ⟨⟨_, exec_of_due (p := .bfly) ⟨hat, hdue⟩, ?length, fun u v hu hv => ?entries⟩,
    ?parts⟩, by decide +kernel⟩
  case length => exact (length_butterfly _ _ _ _).trans hlen
  case entries =>
    have hne : bflyP s ≠ bflyQ s := by
      obtain ⟨-, -, -, hj⟩ := hdue
      rw [bflyP, bflyQ]
      omega
    obtain ⟨hp, -⟩ := List.getElem?_eq_some_iff.1 hu
    obtain ⟨hq, -⟩ := List.getElem?_eq_some_iff.1 hv
    rw [← cAt_of_getElem? hu, ← cAt_of_getElem? hv]
    exact getElem?_butterfly hne hp hq s.fft.w
  case parts =>
    obtain ⟨c, hparts, -⟩ := takesTo_butterflyParts hat hdue
    exact ⟨_, _, hparts, exec_of_due (p := .bfly) ⟨hat, hdue⟩, rfl⟩

end Sys2Proof.Machine
end

section
/-! PROOFS. The exact cases of binary64 that a butterfly meets (R147, R164): a finite value is its own rounding, times
`1.0` it is itself, and a zero term changes no sum but a zero. -/

namespace Sys2Proof.Machine

variable {x y z : F64}

theorem fPack_fields (x : F64) : fPack (fSign x) (fMag x) = x := by
  apply BitVec.eq_of_toNat_eq
  have hlt := x.isLt
  rw [fPack_toNat _ (fMag_lt x), fMag, fSign]
  by_cases hsign : 2 ^ 63 ≤ x.toNat
  · rw [if_pos (decide_eq_true hsign)]
    omega
  · rw [if_neg (by simpa using hsign)]
    omega

/-- A finite value's units are its own rounding. -/
theorem roundMag_fScaled {den : Nat} (hden : 0 < den) (hx : fIsFinite x = true) :
    roundMag (fScaled x * den) den = fMag x := by
  have hlt : fMag x < infMag := of_decide_eq_true hx
  have hdivmod := Nat.div_add_mod (fMag x) (2 ^ 52)
  have hfrac : fMag x % 2 ^ 52 < 2 ^ 52 := Nat.mod_lt _ (by decide)
  have hsteps {m e : Nat} (hbits : excessBits (m * 2 ^ e) = e) (hmag : 2 ^ 52 * e + m = fMag x) :
      roundMag (m * 2 ^ e * den) den = fMag x := by
    have hden' : m * 2 ^ e * den = m * (den * 2 ^ e) := by ring
    rw [roundMag, Nat.mul_div_cancel _ hden, hbits, hden', roundEven_of_dvd m (by positivity), hmag,
      Nat.min_eq_right hlt.le]
  rw [fScaled]
  split
  case isTrue hsub =>
    rw [← Nat.mul_one (fMag x % 2 ^ 52), ← Nat.pow_zero 2]
    refine hsteps ?_ (by omega)
    rw [Nat.pow_zero, Nat.mul_one, excessBits]
    by_cases hzero : fMag x % 2 ^ 52 = 0
    · rw [hzero, Nat.log2_zero]
    · have hlog := (Nat.log2_lt hzero).2 hfrac
      omega
  case isFalse hnormal => exact hsteps (excessBits_significand _ (by omega) (by omega)) (by omega)

theorem fRound_fScaled {den : Nat} (hden : 0 < den) (hx : fIsFinite x = true) :
    fRound (fSign x) (fScaled x * den) den = x := by
  rw [fRound, roundMag_fScaled hden hx, fPack_fields]

theorem fScaled_of_zero (h : fIsZero x = true) : fScaled x = 0 := by
  rw [fScaled, eq_of_beq h]
  rfl

theorem fFixed_of_zero (h : fIsZero x = true) : fFixed x = 0 := by
  rw [fFixed, fScaled_of_zero h]
  split <;> rfl

theorem fIsZero_fPack_zero (sg : Bool) : fIsZero (fPack sg 0) = true := by cases sg <;> decide

theorem fIsZero_fNeg (x : F64) : fIsZero (fNeg x) = fIsZero x := by rw [fIsZero, fMag_fNeg, fIsZero]

theorem natAbs_fFixed (x : F64) : (fFixed x).natAbs = fScaled x := by
  rw [fFixed]
  split
  · rw [Int.natAbs_neg, Int.natAbs_natCast]
  · rw [Int.natAbs_natCast]

theorem fFixed_neg_iff_sign (h : fIsZero x = false) : decide (fFixed x < 0) = fSign x := by
  have hpos := fScaled_pos h
  rw [fFixed]
  cases fSign x
  · exact decide_eq_false (by rw [if_neg Bool.false_ne_true]; omega)
  · exact decide_eq_true (by rw [if_pos rfl]; omega)

theorem fScaled_fOne : fScaled fOne = fUnit := by
  have hscaled : fScaled fOne = 2 ^ 52 * 2 ^ 1022 := fScaled_of_fMag (by decide) (by decide) (by decide)
  have hpow : 2 ^ 1074 = 2 ^ 52 * 2 ^ 1022 := by rw [← Nat.pow_add]
  rw [hscaled, fUnit, hpow]

/-- `1.0` times a finite value is that value, the sign of a zero too. -/
theorem fMul_fOne (hx : fIsFinite x = true) : fMul fOne x = x := by
  rw [fMul_of_finite (by decide) hx, fScaled_fOne, Nat.mul_comm, show fSign fOne = false by decide, Bool.false_bne,
    fRound_fScaled fUnit_pos hx]

/-- A product of finite values one of which is a zero is a zero. -/
theorem fIsZero_fMul (hx : fIsFinite x = true) (hy : fIsFinite y = true) (h : fIsZero x = true ∨ fIsZero y = true) :
    fIsZero (fMul x y) = true := by
  have hzero : roundMag 0 fUnit = 0 := by
    have hself := roundMag_fScaled (x := fZero) fUnit_pos (by decide)
    rwa [fScaled_of_zero (by decide), Nat.zero_mul] at hself
  have hproduct : fScaled x * fScaled y = 0 := Nat.mul_eq_zero.2 (h.imp fScaled_of_zero fScaled_of_zero)
  rw [fMul_of_finite hx hy, hproduct, fRound, hzero, fIsZero_fPack_zero]

/-- A finite value plus a zero is that value, or a zero where it is one. -/
theorem fSum_zero (op : Nat) (x0 y0 : F64) (hx : fIsFinite x = true) (hy : fIsZero y = true) :
    fSum op x0 y0 x y = x ∨ (fIsZero (fSum op x0 y0 x y) = true ∧ fIsZero x = true) := by
  rw [fSum_of_finite op x0 y0 hx (fIsFinite_of_zero hy), fFixed_of_zero hy, Int.add_zero]
  cases hzero : fIsZero x with
  | true =>
    rw [if_pos (fFixed_of_zero hzero), fIsZero_fPack_zero]
    exact .inr ⟨rfl, rfl⟩
  | false =>
    have hpos := fScaled_pos hzero
    have hunits := natAbs_fFixed x
    rw [if_neg (by omega), fFixed_neg_iff_sign hzero, hunits]
    exact .inl (by simpa using fRound_fScaled (den := 1) Nat.one_pos hx)

theorem fAdd_zero (hx : fIsFinite x = true) (hy : fIsZero y = true) :
    fAdd x y = x ∨ (fIsZero (fAdd x y) = true ∧ fIsZero x = true) := by
  rw [fAdd_of_finite hx (fIsFinite_of_zero hy)]
  exact fSum_zero 0 x y hx hy

theorem fSub_zero (hx : fIsFinite x = true) (hy : fIsZero y = true) :
    fSub x y = x ∨ (fIsZero (fSub x y) = true ∧ fIsZero x = true) := by
  rw [fSub_of_finite hx (fIsFinite_of_zero hy)]
  exact fSum_zero 1 x y hx ((fIsZero_fNeg y).trans hy)

/-- Settles O19: `1.0` keeps a part, and the other term is a zero. -/
theorem unitTwiddleKeepsTheEntry : Obligations.UnitTwiddleKeepsTheEntry := by
  intro c hre him
  rw [cMul, show cOne.re = fOne from rfl, show cOne.im = fZero from rfl, fMul_fOne hre, fMul_fOne him]
  exact ⟨fSub_zero hre (fIsZero_fMul (by decide) him (.inl (by decide))),
    fAdd_zero him (fIsZero_fMul (by decide) hre (.inl (by decide)))⟩

end Sys2Proof.Machine
end

section
/-! PROOFS. The pass of an FFT in closed form (R166): the butterflies of a block, the blocks of a pass. -/

namespace Sys2Proof.Machine

variable {half k n : Nat} {wl : Cplx} {a b : List Cplx}

/-! ## A block -/

/-- The state of a block's loop after `n` turns: the running twiddle and the buffer. -/
def blockLoop (half k : Nat) (wl : Cplx) (a : List Cplx) (n : Nat) : Cplx × List Cplx :=
  (List.range n).foldl (blockStep half k wl) (cOne, a)

theorem blockLoop_succ (half k : Nat) (wl : Cplx) (a : List Cplx) (n : Nat) :
    blockLoop half k wl a (n + 1) = blockStep half k wl (blockLoop half k wl a n) n := by
  rw [blockLoop, List.range_succ, List.foldl_append, ← blockLoop]
  rfl

theorem passBlock_eq (half k : Nat) (wl : Cplx) (a : List Cplx) :
    passBlock half wl a k = (blockLoop half k wl a half).2 := rfl

theorem length_blockLoop (half k : Nat) (wl : Cplx) (a : List Cplx) (n : Nat) :
    (blockLoop half k wl a n).2.length = a.length := by
  induction n with
  | zero => rfl
  | succ n ih => rw [blockLoop_succ, blockStep, length_butterfly, ih]

/-- The twiddle restarts in every block and is the same at the same index (R166). -/
theorem blockLoop_twiddle (half k : Nat) (wl : Cplx) (a : List Cplx) (n : Nat) :
    (blockLoop half k wl a n).1 = runningTwiddle wl n := by
  induction n with
  | zero => rfl
  | succ n ih => rw [blockLoop_succ, blockStep, ih, runningTwiddle]

/-- In `b` the entries `x` and `x + half` are those of `a` combined by the butterfly of index `j`. -/
def Combined (half : Nat) (wl : Cplx) (a b : List Cplx) (x j : Nat) : Prop :=
  cAt b x = cAdd (cAt a x) (cMul (runningTwiddle wl j) (cAt a (x + half))) ∧
  cAt b (x + half) = cSub (cAt a x) (cMul (runningTwiddle wl j) (cAt a (x + half)))

/-- What is combined from entries that `a` shares with the buffer before is combined from that one. -/
theorem Combined.of_source {c : List Cplx} {x j : Nat} (h : Combined half wl a b x j) (hx : cAt a x = cAt c x)
    (hy : cAt a (x + half) = cAt c (x + half)) : Combined half wl c b x j := by
  rwa [Combined, ← hx, ← hy]

/-- What is combined stays so while its two entries are kept. -/
theorem Combined.of_result {c : List Cplx} {x j : Nat} (h : Combined half wl a b x j) (hx : cAt c x = cAt b x)
    (hy : cAt c (x + half) = cAt b (x + half)) : Combined half wl a c x j := by
  rwa [Combined, hx, hy]

/-- After `n` turns the first `n` pairs of the block are combined and every other entry is kept: the pairs are
disjoint. -/
theorem blockLoop_entries (hroom : k + half + half ≤ a.length) (hn : n ≤ half) :
    (∀ j < n, Combined half wl a (blockLoop half k wl a n).2 (k + j) j) ∧
    ∀ x, x < k ∨ (k + n ≤ x ∧ x < k + half) ∨ k + half + n ≤ x →
      cAt (blockLoop half k wl a n).2 x = cAt a x := by
  induction n with
  | zero => exact ⟨fun j hj => absurd hj (Nat.not_lt_zero j), fun _ _ => rfl⟩
  | succ n ih =>
    obtain ⟨hdone, hkept⟩ := ih (by omega)
    have hlen := length_blockLoop half k wl a n
    obtain ⟨hfirst, hsecond, hothers⟩ := cAt_butterfly (a := (blockLoop half k wl a n).2) (i := k + n)
      (j := k + n + half) (by omega) (by omega) (by omega) (runningTwiddle wl n)
    rw [blockLoop_succ, blockStep, blockLoop_twiddle]
    refine ⟨fun j hj => ?_, fun x hx => ?_⟩
    · rcases Nat.lt_succ_iff_lt_or_eq.1 hj with hbefore | rfl
      · exact (hdone j hbefore).of_result (hothers _ (by omega) (by omega)) (hothers _ (by omega) (by omega))
      · exact Combined.of_source ⟨hfirst, hsecond⟩ (hkept _ (by omega)) (hkept _ (by omega))
    · exact (hothers x (by omega) (by omega)).trans (hkept x (by omega))

theorem passBlock_entries (hroom : k + half + half ≤ a.length) :
    (∀ j < half, Combined half wl a (passBlock half wl a k) (k + j) j) ∧
    ∀ x, x < k ∨ k + half + half ≤ x → cAt (passBlock half wl a k) x = cAt a x := by
  obtain ⟨hdone, hkept⟩ := blockLoop_entries (wl := wl) hroom le_rfl
  exact ⟨hdone, fun x hx => hkept x (hx.imp id .inr)⟩

/-! ## A pass -/

/-- The buffer after the first `n` blocks of a pass of length `l`. -/
def passLoop (l : Nat) (wl : Cplx) (a : List Cplx) (n : Nat) : List Cplx :=
  (List.range n).foldl (fun b i => passBlock (l / 2) wl b (i * l)) a

theorem passLoop_succ (l : Nat) (wl : Cplx) (a : List Cplx) (n : Nat) :
    passLoop l wl a (n + 1) = passBlock (l / 2) wl (passLoop l wl a n) (n * l) := by
  rw [passLoop, List.range_succ, List.foldl_append, ← passLoop]
  rfl

theorem passBuf_eq (n l : Nat) (a : List Cplx) : passBuf n l a = passLoop l (twiddle l) a (n / l) := rfl

theorem length_passLoop (l : Nat) (wl : Cplx) (a : List Cplx) (n : Nat) : (passLoop l wl a n).length = a.length := by
  induction n with
  | zero => rfl
  | succ n ih => rw [passLoop_succ, length_passBlock, ih]

/-- After `n` blocks their pairs are combined, and the entries from the next block on are kept: the blocks are
disjoint. -/
theorem passLoop_entries {l : Nat} (hl : l / 2 + l / 2 = l) (hroom : n * l ≤ a.length) :
    (∀ i < n, ∀ j < l / 2, Combined (l / 2) wl a (passLoop l wl a n) (i * l + j) j) ∧
    ∀ x, n * l ≤ x → cAt (passLoop l wl a n) x = cAt a x := by
  induction n with
  | zero => exact ⟨fun i hi => absurd hi (Nat.not_lt_zero i), fun _ _ => rfl⟩
  | succ n ih =>
    rw [Nat.succ_mul] at hroom ⊢
    obtain ⟨hdone, hkept⟩ := ih (by omega)
    have hlen := length_passLoop l wl a n
    obtain ⟨hblock, hothers⟩ := passBlock_entries (half := l / 2) (k := n * l) (wl := wl) (a := passLoop l wl a n)
      (by omega)
    rw [passLoop_succ]
    refine ⟨fun i hi j hj => ?_, fun x hx => ?_⟩
    · rcases Nat.lt_succ_iff_lt_or_eq.1 hi with hbefore | rfl
      · have hblocks : (i + 1) * l ≤ n * l := Nat.mul_le_mul_right l hbefore
        rw [Nat.succ_mul] at hblocks
        exact (hdone i hbefore j hj).of_result (hothers _ (by omega)) (hothers _ (by omega))
      · exact (hblock j hj).of_source (hkept _ (by omega)) (hkept _ (by omega))
    · exact (hothers x (by omega)).trans (hkept x (by omega))

/-- Settles O20: every block of the pass combines its own pairs. -/
theorem passInClosedForm : Obligations.PassInClosedForm := by
  refine ⟨rfl, fun s p hat hp hl hlen => ?_⟩
  have hle : 2 ^ (p + 1) ≤ s.hw.chunk := Nat.pow_le_pow_right two_pos hp
  have hlegal : passLegal s.hw.chunk s.fft.l := hl ▸ passLegal_two_pow (Nat.succ_pos p) hle
  have hdouble : 2 ^ (p + 1) = 2 * 2 ^ p := Nat.pow_succ'
  have hhalf : 2 ^ (p + 1) / 2 = 2 ^ p := by omega
  obtain ⟨hdone, -⟩ := passLoop_entries (n := s.hw.chunk / 2 ^ (p + 1)) (wl := twiddle (2 ^ (p + 1)))
    (a := s.spectral.buf) (show 2 ^ (p + 1) / 2 + 2 ^ (p + 1) / 2 = 2 ^ (p + 1) by omega)
    ((Nat.div_mul_le_self _ _).trans hlen.ge)
  rw [← passBuf_eq, hhalf] at hdone
  refine ⟨passBuf s.hw.chunk (2 ^ (p + 1)) s.spectral.buf, ?_, (length_passBuf _ _ _).trans hlen,
    fun i j hi hj => hdone i hi j hj⟩
  have hnext : 2 ^ (p + 2) = 2 * 2 ^ (p + 1) := Nat.pow_succ'
  refine (exec_of_due (p := .bfpass) ⟨hat, hlegal⟩).trans ?_
  rw [CstepPart.effect, opBfpass_eq, hl, hnext, ← hat.2]

end Sys2Proof.Machine
end

section
/-! PROOFS. An FFT part by part (R116, R166, R167, R170): a butterfly and its twiddle's advance, a pass, the
transform; each composite taken whole or in parts leaves the same but for the temporaries, and the work counted. -/

namespace Sys2Proof.Machine

variable {s t : State} {turn pass : List Instr}

/-- The state with other temporaries of the FFT engine and of the complex unit (R28, R140). -/
def State.withTemps (s : State) (x : FftTemps) (c : ComplexUnit) : State := (s.setFft x).setCu c

/-- Two ways that lead to states which differ only in their temporaries, the engine at the same point. -/
theorem sameButTemps_of {is js : List Instr} {x : FftTemps} {c : ComplexUnit}
    (hjs : runOps js s = .next t) (his : runOps is s = .next (t.withTemps x c)) (hphase : x.phase = t.fft.phase) :
    sameButTemps is js s := by
  refine ⟨_, _, his, hjs, ?_⟩
  rw [← hphase]
  rfl

theorem runOps_single {i : Instr} (h : exec i s = .next t) : runOps [i] s = .next t := by
  rw [runOps, h]
  rfl

/-! ## A turn: the butterfly and the twiddle's advance -/

/-- In the pass of `s` the butterfly of index `j` of the block at `k` is due; the running twiddle and the buffer are
`st`, the complex unit's temporaries `c`. -/
def State.inPass (s : State) (k j : Nat) (st : Cplx × List Cplx) (c : ComplexUnit) : State :=
  { s with
    spectral := { s.spectral with buf := st.2 }
    fft := { s.fft with k := k, j := j, w := st.1, phase := .ready }
    cu := c }

/-- The operations `turn` are a butterfly with its advance: each taken where it is due, they leave what BFLY and the
CMUL leave, but for the complex unit's temporaries. -/
def IsTurn (turn : List Instr) : Prop :=
  ∀ s, engineAt s .ready → bflyDue s → ∃ c, TakesTo turn s ((opAdvance (opBfly s)).setCu c)

theorem takesTo_advance (c : ComplexUnit) (hat : consAt s .windowed) :
    ∃ d, TakesTo [.cmul] ((opBfly s).setCu c) ((opAdvance (opBfly s)).setCu d) := by
  have hadvance := takesTo_phase (s := (opBfly s).setCu c) (p := .advance) ⟨hat, rfl⟩ rfl (opAdvance_phase _) nofun
  rw [CstepPart.effect, opAdvance_eq] at hadvance
  rw [opAdvance_eq]
  exact ⟨_, hadvance⟩

theorem isTurn_whole : IsTurn [.bfly, .cmul] := by
  intro s hat hdue
  have hbfly : TakesTo [.bfly] s (opBfly s) := takesTo_phase (p := .bfly) ⟨hat, hdue⟩ hat.2 rfl nofun
  obtain ⟨d, hadvance⟩ := takesTo_advance s.cu hat.1
  exact ⟨d, hbfly.append hadvance⟩

theorem isTurn_parts : IsTurn [.cmul, .cadd, .csub, .bfly, .cmul] := by
  intro s hat hdue
  obtain ⟨c, hbfly⟩ := takesTo_butterflyParts hat hdue
  obtain ⟨d, hadvance⟩ := takesTo_advance c hat.1
  exact ⟨d, hbfly.append hadvance⟩

/-- A turn is one step of the block's loop, then the next butterfly of the block or the next block (R166). -/
theorem takesTo_turn (hturn : IsTurn turn) {k j : Nat} {st : Cplx × List Cplx} {c : ComplexUnit}
    (hat : consAt s .windowed) (hdue : butterflyLegal s.hw.chunk s.fft.l k j) :
    ∃ d, TakesTo turn (s.inPass k j st c)
      (if j + 1 < s.fft.l / 2 then s.inPass k (j + 1) (blockStep (s.fft.l / 2) k s.fft.wl st j) d
        else s.inPass (k + s.fft.l) 0 (cOne, (blockStep (s.fft.l / 2) k s.fft.wl st j).2) d) := by
  obtain ⟨d, hruns⟩ := hturn (s.inPass k j st c) ⟨hat, rfl⟩ hdue
  refine ⟨d, ?_⟩
  convert hruns using 1
  rw [opAdvance_eq, opBfly_eq]
  show _ = State.setCu { s.inPass k j st c with
    spectral := _, cu := _, fft := if j + 1 < s.fft.l / 2 then _ else _ } d
  split <;> rfl

/-! ## A pass -/

theorem two_dvd_of_passLegal {n l : Nat} (hl : passLegal n l) : 2 ∣ l := by
  obtain ⟨hpow, htwo, -⟩ := hl
  have hlog : Nat.log2 l ≠ 0 := fun hzero => by rw [hzero, Nat.pow_zero] at hpow; omega
  have hdvd := dvd_pow_self 2 hlog
  rwa [← hpow] at hdvd

/-- The butterflies of the blocks of a pass (R166). -/
theorem butterflyLegal_block {n l i j : Nat} (hl : passLegal n l) (hi : i < n / l) (hj : j < l / 2) :
    butterflyLegal n l (i * l) j := by
  have hblocks : (i + 1) * l ≤ n / l * l := Nat.mul_le_mul_right l hi
  have hroom := Nat.div_mul_le_self n l
  rw [Nat.succ_mul] at hblocks
  exact ⟨hl, Nat.mul_mod_left _ _, by omega, hj⟩

/-- Of the block at `k` the first `n` turns are taken, on the buffer `b`. -/
def AfterTurns (s : State) (k : Nat) (b : List Cplx) (n : Nat) (t : State) : Prop :=
  ∃ c, t = s.inPass k n (blockLoop (s.fft.l / 2) k s.fft.wl b n) c

/-- Of the pass the first `n` blocks are taken, on the buffer `b`, and the next block is due. -/
def AfterBlocks (s : State) (b : List Cplx) (n : Nat) (t : State) : Prop :=
  ∃ c, t = s.inPass (n * s.fft.l) 0 (cOne, passLoop s.fft.l s.fft.wl b n) c

theorem takesTo_nextTurn (hturn : IsTurn turn) (hat : consAt s .windowed) {k j : Nat} {b : List Cplx}
    (hdue : butterflyLegal s.hw.chunk s.fft.l k j) (hj : j + 1 < s.fft.l / 2) (h : AfterTurns s k b j t) :
    ∃ u, TakesTo turn t u ∧ AfterTurns s k b (j + 1) u := by
  obtain ⟨c, rfl⟩ := h
  obtain ⟨d, hruns⟩ := takesTo_turn hturn hat hdue
  rw [if_pos hj, ← blockLoop_succ] at hruns
  exact ⟨_, hruns, d, rfl⟩

/-- The turns of a block (R166): the last of them goes on to the next block. -/
theorem takesTo_block (hturn : IsTurn turn) (hat : consAt s .windowed) (hl : passLegal s.hw.chunk s.fft.l) {i : Nat}
    (hi : i < s.hw.chunk / s.fft.l) {b : List Cplx} (h : AfterBlocks s b i t) :
    ∃ u, TakesTo (timesOps (s.fft.l / 2) turn) t u ∧ AfterBlocks s b (i + 1) u := by
  obtain ⟨c, rfl⟩ := h
  obtain ⟨n, hn⟩ : ∃ n, s.fft.l / 2 = n + 1 :=
    Nat.exists_eq_succ_of_ne_zero (Nat.div_pos hl.2.1 two_pos).ne'
  have hdue (j : Nat) (hj : j < n + 1) := butterflyLegal_block hl hi (hn ▸ hj)
  obtain ⟨_, hturns, d, rfl⟩ := takesTo_timesOps (n := n)
    (P := AfterTurns s (i * s.fft.l) (passLoop s.fft.l s.fft.wl b i))
    (fun j hj t => takesTo_nextTurn hturn hat (hdue j (by omega)) (by omega)) ⟨c, rfl⟩
  obtain ⟨e, hlast⟩ := takesTo_turn hturn (c := d) hat (hdue n n.lt_succ_self)
  rw [if_neg (by omega), ← blockLoop_succ, ← hn, ← passBlock_eq, ← Nat.succ_mul, ← passLoop_succ] at hlast
  rw [hn, timesOps_succ]
  exact ⟨_, hturns.append hlast, e, rfl⟩

/-- All turns of a pass (R166). -/
theorem takesTo_turns (hturn : IsTurn turn) (hat : consAt s .windowed) (hl : passLegal s.hw.chunk s.fft.l)
    (b : List Cplx) (c : ComplexUnit) :
    ∃ d, TakesTo (timesOps (s.hw.chunk / 2) turn) (s.inPass 0 0 (cOne, b) c)
      (s.inPass s.hw.chunk 0 (cOne, passLoop s.fft.l s.fft.wl b (s.hw.chunk / s.fft.l)) d) := by
  obtain ⟨_, hblocks, d, rfl⟩ := takesTo_timesOps (s := s.inPass 0 0 (cOne, b) c) (P := AfterBlocks s b)
    (fun i hi t => takesTo_block hturn hat hl hi) ⟨c, by rw [Nat.zero_mul]; rfl⟩
  have hwhole : s.hw.chunk / s.fft.l * s.fft.l = s.hw.chunk := Nat.div_mul_cancel (dvd_chunk_of_passLegal _ hl)
  have hturns : s.hw.chunk / s.fft.l * (s.fft.l / 2) = s.hw.chunk / 2 := by
    rw [← Nat.mul_div_assoc _ (two_dvd_of_passLegal hl), hwhole]
  rw [← timesOps_mul, hturns, hwhole] at hblocks
  exact ⟨d, hblocks⟩

/-- The operations `pass` are a pass: they leave what BFPASS leaves, but for the temporaries. -/
def IsPass (p : Params) (pass : List Instr) : Prop :=
  ∀ s, s.hw = p → engineAt s .pass → passLegal s.hw.chunk s.fft.l →
    ∃ x c, TakesTo pass s ((opBfpass s).withTemps x c) ∧ x.l = 2 * s.fft.l ∧ x.phase = .pass

theorem isPass_whole (p : Params) : IsPass p [.bfpass] := by
  intro s _ hat hl
  have hmoves : (opBfpass s).fft ≠ s.fft := fun heq => by
    have hdouble : 2 * s.fft.l = s.fft.l := congrArg FftTemps.l heq
    have htwo := hl.2.1
    omega
  exact ⟨(opBfpass s).fft, s.cu, takesTo_part (p := .bfpass) ⟨hat, hl⟩ hmoves, rfl, rfl⟩

/-- A pass is TWID, its turns, and its own word (R116, R166). -/
theorem isPass_parts (p : Params) (hturn : IsTurn turn) :
    IsPass p (.twid :: timesOps (p.chunk / 2) turn ++ [.bfpass]) := by
  rintro s rfl hat hl
  have htwid : TakesTo [.twid] s (opTwid s) := takesTo_phase (p := .twid) ⟨hat, hl⟩ hat.2 rfl nofun
  obtain ⟨c, hturns⟩ := takesTo_turns (s := opTwid s) hturn hat.1 hl s.spectral.buf s.cu
  have hend := takesTo_phase (s := (opTwid s).inPass s.hw.chunk 0
    (cOne, passLoop s.fft.l (twiddle s.fft.l) s.spectral.buf (s.hw.chunk / s.fft.l)) c)
    (p := .bfpassEnd) ⟨⟨hat.1, rfl⟩, rfl⟩ rfl rfl nofun
  exact ⟨_, c, htwid.append (hturns.append hend), rfl, rfl⟩

/-! ## The transform -/

/-- The buffer after BITREV and `n` passes (R167). -/
def fftLoop (m : Nat) (a : List Cplx) (n : Nat) : List Cplx :=
  (List.range n).foldl (fun b p => passBuf (2 ^ m) (2 ^ (p + 1)) b) (bitrevBuf m a)

theorem fftLoop_succ (m : Nat) (a : List Cplx) (n : Nat) :
    fftLoop m a (n + 1) = passBuf (2 ^ m) (2 ^ (n + 1)) (fftLoop m a n) := by
  rw [fftLoop, List.range_succ, List.foldl_append, ← fftLoop]
  rfl

theorem fftBuf_eq (m : Nat) (a : List Cplx) : fftBuf m a = fftLoop m a m := rfl

/-- In the transform of `s` the buffer is `b` and the temporaries are `x` and `c`. -/
def State.inFft (s : State) (b : List Cplx) (x : FftTemps) (c : ComplexUnit) : State :=
  { s with
    spectral := { s.spectral with buf := b }
    fft := x
    cu := c }

/-- Of the transform of `s` BITREV and `n` passes are taken, and the next pass is due. -/
def AfterPasses (s : State) (n : Nat) (t : State) : Prop :=
  ∃ x c, t = s.inFft (fftLoop s.hw.log2Chunk s.spectral.buf n) x c ∧ x.l = 2 ^ (n + 1) ∧ x.phase = .pass

theorem takesTo_nextPass (hpass : IsPass s.hw pass) (hat : consAt s .windowed) {n : Nat} (hn : n < s.hw.log2Chunk)
    (h : AfterPasses s n t) : ∃ u, TakesTo pass t u ∧ AfterPasses s (n + 1) u := by
  obtain ⟨x, c, rfl, hl, hphase⟩ := h
  have hlegal : passLegal s.hw.chunk x.l := hl ▸ passLegal_two_pow n.succ_pos (Nat.pow_le_pow_right two_pos hn)
  obtain ⟨y, d, hruns, hnext, hphase'⟩ := hpass (s.inFft _ x c) rfl ⟨hat, hphase⟩ hlegal
  have hstate : (opBfpass (s.inFft (fftLoop s.hw.log2Chunk s.spectral.buf n) x c)).withTemps y d =
      s.inFft (fftLoop s.hw.log2Chunk s.spectral.buf (n + 1)) y d := by
    rw [opBfpass_eq, fftLoop_succ, ← hl, ← chunk_eq]
    rfl
  have hdouble : y.l = 2 ^ (n + 1 + 1) := by rw [hnext, Nat.pow_succ', ← hl, State.inFft]
  exact ⟨_, hruns, y, d, hstate, hdouble, hphase'⟩

/-- A transform is BITREV, its passes, and its own word (R116, R167). -/
theorem takesTo_fft (hpass : IsPass s.hw pass) (hat : engineAt s .idle) :
    ∃ x c, TakesTo (.bitrev :: timesOps s.hw.log2Chunk pass ++ [.fft]) s ((opFftDone (opFft s)).withTemps x c) ∧
      x.phase = .idle := by
  have hbitrev : TakesTo [.bitrev] s (opBitrev s) := takesTo_phase (p := .bitrev) hat hat.2 rfl nofun
  obtain ⟨t, hpasses, x, c, rfl, hl, hphase⟩ := takesTo_timesOps (is := pass) (n := s.hw.log2Chunk) (s := opBitrev s)
    (P := AfterPasses s) (fun n hn t => takesTo_nextPass hpass hat.1 hn) ⟨(opBitrev s).fft, s.cu, rfl, rfl, rfl⟩
  have hbeyond : s.hw.chunk < x.l := hl ▸ Nat.pow_lt_pow_right one_lt_two (Nat.lt_succ_self _)
  have hend := takesTo_phase (s := s.inFft (fftBuf s.hw.log2Chunk s.spectral.buf) x c) (p := .fftEnd)
    ⟨⟨hat.1, hphase⟩, hbeyond⟩ hphase rfl nofun
  exact ⟨{ x with phase := .idle }, c, hbitrev.append (hpasses.append hend), rfl⟩

theorem exec_fft_idle (hat : engineAt s .idle) : exec .fft s = .next { s with
    spectral := { s.spectral with buf := fftBuf s.hw.log2Chunk s.spectral.buf }
    cons := { s.cons with part := .transformed } } := by
  refine (exec_of_due (p := .fft) hat).trans ?_
  rw [CstepPart.effect, opFftDone_eq, opFft_eq, ← hat.2]

/-- The transform taken in parts leaves what it leaves taken whole, and every part is taken. -/
theorem fft_sameButTemps (hpass : IsPass s.hw pass) (hat : engineAt s .idle) :
    sameButTemps (.bitrev :: timesOps s.hw.log2Chunk pass ++ [.fft]) [.fft] s ∧
    allTaken (.bitrev :: timesOps s.hw.log2Chunk pass ++ [.fft]) s := by
  obtain ⟨x, c, ⟨hruns, htaken⟩, hphase⟩ := takesTo_fft hpass hat
  exact ⟨sameButTemps_of (runOps_single (exec_of_due (p := .fft) hat)) hruns hphase, htaken⟩

/-! ## The work of a transform (R170) -/

theorem count_timesOps (i : Instr) (n : Nat) (is : List Instr) : (timesOps n is).count i = n * is.count i := by
  rw [timesOps, List.count_flatten, List.map_replicate, List.sum_replicate, smul_eq_mul]

/-- Of an operation that is no end of a composite and not BITREV, a transform takes `twids` in each pass and `turns`
in each turn. -/
theorem count_fftParts (p : Params) (i : Instr) {twids turns : Nat} (htwids : [Instr.twid].count i = twids)
    (hturns : [Instr.cmul, .cadd, .csub, .bfly, .cmul].count i = turns) (hbitrev : i ≠ .bitrev) (hbfpass : i ≠ .bfpass)
    (hfft : i ≠ .fft) : (fftParts p).count i = p.log2Chunk * (twids + p.chunk / 2 * turns) := by
  have hpass (js : List Instr) : (.twid :: js ++ [Instr.bfpass]).count i = twids + js.count i := by
    rw [← List.singleton_append, List.count_append, List.count_append, htwids, List.count_cons_of_ne hbfpass.symm,
      List.count_nil, Nat.add_zero]
  rw [fftParts, List.count_append, List.count_cons_of_ne hbitrev.symm, List.count_cons_of_ne hfft.symm, List.count_nil,
    Nat.add_zero, count_timesOps, hpass, count_timesOps, hturns]

/-- The work of a transform: in each of the `m` passes one TWID and `CHUNK/2` turns (R170). -/
theorem work_of_fft (p : Params) :
    (fftParts p).count .bfly = p.chunk / 2 * p.log2Chunk ∧ (fftParts p).count .cmul = p.chunk * p.log2Chunk ∧
    (fftParts p).count .cadd = p.chunk / 2 * p.log2Chunk ∧ (fftParts p).count .csub = p.chunk / 2 * p.log2Chunk ∧
    (fftParts p).count .twid = p.log2Chunk := by
  have hhalves : p.chunk / 2 * 2 = p.chunk := Nat.div_mul_cancel (dvd_pow_self 2 (Nat.succ_ne_zero _))
  have honce : p.log2Chunk * (0 + p.chunk / 2 * 1) = p.chunk / 2 * p.log2Chunk := by ring
  have htwice : p.log2Chunk * (0 + p.chunk / 2 * 2) = p.chunk * p.log2Chunk := by rw [hhalves]; ring
  have htwid : p.log2Chunk * (1 + p.chunk / 2 * 0) = p.log2Chunk := by ring
  exact ⟨(count_fftParts p .bfly rfl rfl nofun nofun nofun).trans honce,
    (count_fftParts p .cmul rfl rfl nofun nofun nofun).trans htwice,
    (count_fftParts p .cadd rfl rfl nofun nofun nofun).trans honce,
    (count_fftParts p .csub rfl rfl nofun nofun nofun).trans honce,
    (count_fftParts p .twid rfl rfl nofun nofun nofun).trans htwid⟩

/-- Settles O21: both levels of the parts are passes, and their turns are turns. -/
theorem fftIsBitrevThenPasses : Obligations.FftIsBitrevThenPasses := by
  refine ⟨rfl, fun s hat => ?transform, work_of_fft, by decide, fun s hat hl => ?pass⟩
  case transform =>
    obtain ⟨hparts, htaken⟩ := fft_sameButTemps (isPass_parts s.hw isTurn_parts) hat
    exact ⟨⟨_, exec_fft_idle hat⟩, (fft_sameButTemps (isPass_whole s.hw) hat).1, hparts, htaken⟩
  case pass =>
    obtain ⟨x, c, ⟨hruns, -⟩, hdouble, hphase⟩ := isPass_parts s.hw isTurn_whole s rfl hat hl
    exact ⟨⟨_, hruns, hdouble⟩, sameButTemps_of (runOps_single (exec_of_due (p := .bfpass) ⟨hat, hl⟩)) hruns hphase⟩

end Sys2Proof.Machine
end

section
/-! PROOFS. The transform of silence (R167): the running twiddles of a pass stay finite, and a finite twiddle times
`(+0.0, +0.0)` changes no zero entry. -/

namespace Sys2Proof.Machine

variable {x y : F64} {w : Cplx}

/-! ## Magnitudes up to a power of two -/

/-- A finite value of magnitude at most `2^n`. -/
def AtMostPow (n : Nat) (x : F64) : Prop := fIsFinite x = true ∧ fScaled x ≤ 2 ^ n * fUnit

theorem two_pow_mul_fUnit (n : Nat) : 2 ^ n * fUnit = 2 ^ 52 * 2 ^ (1022 + n) := by
  rw [fUnit, ← Nat.pow_add, ← Nat.pow_add, show n + 1074 = 52 + (1022 + n) by omega]

/-- `2^n` is a binary64. -/
theorem exists_fScaled_pow {n : Nat} (hn : n < 1024) : ∃ z : F64, fScaled z = 2 ^ n * fUnit := by
  have hmag := fMag_fPack false (show 2 ^ 52 * (1022 + n) + 2 ^ 52 < 2 ^ 63 by omega)
  exact ⟨_, (fScaled_of_fMag le_rfl (by decide) hmag).trans (two_pow_mul_fUnit n).symm⟩

theorem pow_lt_overflow_of_le {e k : Nat} (h : e ≤ k + 1) : 2 ^ 52 * 2 ^ e < (2 ^ 54 - 1) * 2 ^ k := by
  have hpow : 2 ^ e ≤ 2 ^ k * 2 := (Nat.pow_le_pow_right two_pos h).trans_eq (Nat.pow_succ ..)
  have hpos : 0 < 2 ^ k := by positivity
  omega

/-- `2^n` does not overflow. -/
theorem pow_lt_overflow {n : Nat} (hn : n < 1024) : 2 ^ n * fUnit < (2 ^ 54 - 1) * 2 ^ 2044 := by
  rw [two_pow_mul_fUnit]
  exact pow_lt_overflow_of_le (by omega)

/-- What is at most `2^n` rounds to at most `2^n`: that value is nearer than any above it. -/
theorem atMostPow_fRound {n num den : Nat} (sg : Bool) (hn : n < 1024) (hden : 0 < den)
    (h : num ≤ 2 ^ n * fUnit * den) : AtMostPow n (fRound sg num den) := by
  obtain ⟨z, hz⟩ := exists_fScaled_pow hn
  have hbelow := h.trans_lt (Nat.mul_lt_mul_of_pos_right (pow_lt_overflow hn) hden)
  obtain ⟨hfinite, -, -, hscaled⟩ := fRound_of_not_overflow sg hden hbelow
  obtain ⟨hnear, -⟩ := stepsOf_nearest hden hscaled z
  refine ⟨hfinite, ?_⟩
  rw [← hz] at h ⊢
  by_contra hgt
  have hmore : fScaled z * den < fScaled (fRound sg num den) * den := Nat.mul_lt_mul_of_pos_right (not_le.1 hgt) hden
  zify at h hmore
  omega

theorem AtMostPow.units_le_one (h : AtMostPow 0 x) : fScaled x ≤ fUnit := by
  obtain ⟨-, hunits⟩ := h
  generalize fUnit = u at *
  omega

theorem AtMostPow.neg {n : Nat} (h : AtMostPow n x) : AtMostPow n (fNeg x) := by
  rwa [AtMostPow, fIsFinite_fNeg, fScaled_fNeg]

theorem atMostPow_zero {n : Nat} (h : fIsZero x = true) : AtMostPow n x :=
  ⟨fIsFinite_of_zero h, by rw [fScaled_of_zero h]; exact Nat.zero_le _⟩

/-- A sum of two values is at most twice as large. -/
theorem atMostPow_fSum {n : Nat} (op : Nat) (x0 y0 : F64) (hn : n + 1 < 1024) (hx : AtMostPow n x)
    (hy : AtMostPow n y) : AtMostPow (n + 1) (fSum op x0 y0 x y) := by
  obtain ⟨hxFinite, hxUnits⟩ := hx
  obtain ⟨hyFinite, hyUnits⟩ := hy
  rw [fSum_of_finite op x0 y0 hxFinite hyFinite]
  split
  case isTrue => exact atMostPow_zero (fIsZero_fPack_zero _)
  case isFalse =>
    refine atMostPow_fRound _ hn Nat.one_pos ?_
    have habs := Int.natAbs_add_le (fFixed x) (fFixed y)
    rw [natAbs_fFixed, natAbs_fFixed] at habs
    rw [Nat.mul_one, Nat.pow_succ', Nat.mul_assoc]
    omega

theorem atMostPow_fAdd {n : Nat} (hn : n + 1 < 1024) (hx : AtMostPow n x) (hy : AtMostPow n y) :
    AtMostPow (n + 1) (fAdd x y) := by
  rw [fAdd_of_finite hx.1 hy.1]
  exact atMostPow_fSum 0 x y hn hx hy

theorem atMostPow_fSub {n : Nat} (hn : n + 1 < 1024) (hx : AtMostPow n x) (hy : AtMostPow n y) :
    AtMostPow (n + 1) (fSub x y) := by
  rw [fSub_of_finite hx.1 hy.1]
  exact atMostPow_fSum 1 x y hn hx hy.neg

/-- A factor of magnitude at most 1 keeps the bound. -/
theorem atMostPow_fMul {n : Nat} (hn : n < 1024) (hx : AtMostPow n x) (hy : AtMostPow 0 y) :
    AtMostPow n (fMul x y) := by
  obtain ⟨hxFinite, hxUnits⟩ := hx
  have hyUnits := hy.units_le_one
  obtain ⟨hyFinite, -⟩ := hy
  rw [fMul_of_finite hxFinite hyFinite]
  exact atMostPow_fRound _ hn fUnit_pos (Nat.mul_le_mul hxUnits hyUnits)

/-! ## The running twiddles -/

/-- Both parts are finite and of magnitude at most `2^n`. -/
def CAtMostPow (n : Nat) (w : Cplx) : Prop := AtMostPow n w.re ∧ AtMostPow n w.im

theorem cAtMostPow_cMul {n : Nat} {v : Cplx} (hn : n + 1 < 1024) (hw : CAtMostPow n w) (hv : CAtMostPow 0 v) :
    CAtMostPow (n + 1) (cMul w v) := by
  obtain ⟨hwre, hwim⟩ := hw
  obtain ⟨hvre, hvim⟩ := hv
  have hlt : n < 1024 := by omega
  exact ⟨atMostPow_fSub hn (atMostPow_fMul hlt hwre hvre) (atMostPow_fMul hlt hwim hvim),
    atMostPow_fAdd hn (atMostPow_fMul hlt hwre hvim) (atMostPow_fMul hlt hwim hvre)⟩

/-- A value in `[-1, 1]` is finite and of magnitude at most 1. -/
theorem atMostPow_of_inUnitBall (h : inUnitBall x = true) : AtMostPow 0 x := by
  have hmag := (fMag_le_iff_between (b := fOne) (by decide) (by decide)).2 (Bool.and_eq_true_iff.1 h)
  have hone : fMag fOne = 2 ^ 52 * 1022 + 2 ^ 52 := by decide
  have hpow : 2 ^ 1074 = 2 ^ 52 * 2 ^ 1022 := by rw [← Nat.pow_add]
  rw [hone] at hmag
  refine ⟨decide_eq_true (by rw [infMag]; omega), ?_⟩
  rw [Nat.pow_zero, Nat.one_mul, fUnit, hpow]
  exact fScaled_le le_rfl (by omega) hmag

/-- The pass twiddle is within the limits of NUM, whatever it is (U1, U2). -/
theorem cAtMostPow_twiddle (l : Nat) : CAtMostPow 0 (twiddle l) :=
  ⟨atMostPow_of_inUnitBall (inUnitBall_numCos _), (atMostPow_of_inUnitBall (inUnitBall_numSin _)).neg⟩

/-- Each advance at most doubles the running twiddle. -/
theorem cAtMostPow_runningTwiddle (l : Nat) {j : Nat} (hj : j < 1024) :
    CAtMostPow j (runningTwiddle (twiddle l) j) := by
  induction j with
  | zero =>
    rw [runningTwiddle]
    exact ⟨atMostPow_of_inUnitBall (by decide), atMostPow_zero (by decide)⟩
  | succ j ih => exact cAtMostPow_cMul hj (ih (by omega)) (cAtMostPow_twiddle l)

/-! ## Silence (R167) -/

/-- A zero added to `+0.0` or taken from it leaves `+0.0`, whatever its sign. -/
theorem fZero_kept (hx : fIsZero x = true) : fAdd fZero x = fZero ∧ fSub fZero x = fZero := by
  have hfinite := fIsFinite_of_zero hx
  obtain ⟨-, hsum, -, hdifference⟩ := sumsRoundToNearestEven fZero x (by decide) hfinite
  have hzero : fFixed fZero = 0 := by decide
  rw [hsum (by rw [hzero, fFixed_of_zero hx]; rfl), hdifference (by rw [hzero, fFixed_of_zero hx]; rfl),
    show fSign fZero = false by decide, Bool.false_and, Bool.false_and]
  exact ⟨rfl, rfl⟩

theorem cZero_kept (hw : fIsZero w.re = true ∧ fIsZero w.im = true) : cAdd cZero w = cZero ∧ cSub cZero w = cZero := by
  obtain ⟨hreSum, hreDifference⟩ := fZero_kept hw.1
  obtain ⟨himSum, himDifference⟩ := fZero_kept hw.2
  exact ⟨congrArg₂ Cplx.mk hreSum himSum, congrArg₂ Cplx.mk hreDifference himDifference⟩

/-- A finite twiddle times `(+0.0, +0.0)` has two zeros, of whatever signs. -/
theorem cMul_cZero {n : Nat} (hw : CAtMostPow n w) :
    fIsZero (cMul w cZero).re = true ∧ fIsZero (cMul w cZero).im = true := by
  obtain ⟨⟨hre, -⟩, him, -⟩ := hw
  have hreZero : fIsZero (fMul w.re fZero) = true := fIsZero_fMul hre (by decide) (.inr (by decide))
  have himZero : fIsZero (fMul w.im fZero) = true := fIsZero_fMul him (by decide) (.inr (by decide))
  constructor
  · rcases fSub_zero (fIsFinite_of_zero hreZero) himZero with heq | ⟨hzero, -⟩
    · exact (congrArg fIsZero heq).trans hreZero
    · exact hzero
  · rcases fAdd_zero (fIsFinite_of_zero hreZero) himZero with heq | ⟨hzero, -⟩
    · exact (congrArg fIsZero heq).trans hreZero
    · exact hzero

theorem cAt_silence (n i : Nat) : cAt (List.replicate n cZero) i = cZero := by
  rw [cAt, List.getD_eq_getElem?_getD, List.getElem?_replicate]
  split <;> rfl

/-- A butterfly with a finite twiddle keeps silence. -/
theorem butterfly_silence {e : Nat} (hw : CAtMostPow e w) (n i j : Nat) :
    butterfly (List.replicate n cZero) i j w = List.replicate n cZero := by
  obtain ⟨hsum, hdifference⟩ := cZero_kept (cMul_cZero hw)
  rw [butterfly, cAt_silence, cAt_silence, hsum, hdifference, List.set_replicate_self, List.set_replicate_self]

theorem blockLoop_silence (half k l n : Nat) {t : Nat} (ht : t ≤ 1024) :
    (blockLoop half k (twiddle l) (List.replicate n cZero) t).2 = List.replicate n cZero := by
  induction t with
  | zero => rfl
  | succ t ih =>
    rw [blockLoop_succ, blockStep, ih (by omega), blockLoop_twiddle]
    exact butterfly_silence (cAtMostPow_runningTwiddle l ht) n _ _

theorem passLoop_silence (n t : Nat) {l : Nat} (hl : l / 2 ≤ 1024) :
    passLoop l (twiddle l) (List.replicate n cZero) t = List.replicate n cZero := by
  induction t with
  | zero => rfl
  | succ t ih => rw [passLoop_succ, ih, passBlock_eq, blockLoop_silence _ _ _ _ hl]

theorem bitrevBuf_silence (m n : Nat) : bitrevBuf m (List.replicate n cZero) = List.replicate n cZero := by
  refine List.foldlRecOn (motive := (· = List.replicate n cZero)) _ _ rfl fun b hb i _ => ?_
  rw [hb, bitrevStep, swapAt, cAt_silence, cAt_silence, List.set_replicate_self, List.set_replicate_self, ite_self]

theorem fftLoop_silence (n : Nat) {m t : Nat} (ht : t ≤ m) (hm : m ≤ 10) :
    fftLoop m (List.replicate n cZero) t = List.replicate n cZero := by
  induction t with
  | zero => exact bitrevBuf_silence m n
  | succ t ih =>
    have hhalf : 2 ^ (t + 1) / 2 ≤ 1024 :=
      (Nat.div_le_self _ _).trans (Nat.pow_le_pow_right (n := 2) (j := 10) two_pos (by omega))
    rw [fftLoop_succ, ih (by omega), passBuf_eq, passLoop_silence _ _ hhalf]

/-- Settles O22: every butterfly of the transform has a finite running twiddle and keeps silence. -/
theorem silenceTransformsToSilence : Obligations.SilenceTransformsToSilence := by
  intro s hat hm hbuf
  refine ⟨_, exec_fft_idle hat, ?_⟩
  have hfft : fftBuf s.hw.log2Chunk s.spectral.buf = s.spectral.buf := by
    rw [hbuf, fftBuf_eq, fftLoop_silence _ le_rfl hm]
  show { s.spectral with buf := fftBuf s.hw.log2Chunk s.spectral.buf } = s.spectral
  rw [hfft]

end Sys2Proof.Machine
end

section
/-! PROOFS. Ring access (R180 to R182): the slots of a window by the remainder of the integers, and what RBWR, RBRD and
RBWIN write where they are due. -/

namespace Sys2Proof.Machine

variable {s : State}

/-! ## The window that ends at a slot -/

theorem chunk_le_ringLen (p : Params) : p.chunk ≤ p.ringLen := by
  have := ringLen_eq p
  omega

/-- The slot of a window is the rule's, the remainder being that of the integers (R182): one turn of the ring, which
the model adds to stay above 0, is no matter to it. -/
theorem windowSlot_eq_emod (p : Params) (e i : Nat) :
    windowSlot p e i = (((e : Int) - ((p.chunk : Int) - 1) + i) % (p.ringLen : Int)).toNat := by
  have hle := chunk_le_ringLen p
  have hpos := chunk_pos p
  have hturn : ((e + (p.ringLen - (p.chunk - 1)) + i : Nat) : Int) =
      ((e : Int) - ((p.chunk : Int) - 1) + i) + p.ringLen := by omega
  have hcast : (windowSlot p e i : Int) = ((e : Int) - ((p.chunk : Int) - 1) + i) % (p.ringLen : Int) := by
    rw [windowSlot, Int.natCast_emod, hturn, Int.add_emod_right]
  rw [← hcast, Int.toNat_natCast]

/-- RBWIN's result, sample by sample, oldest first (R182). -/
theorem getElem?_windowOf (p : Params) (m : Memory) (e : Nat) {i : Nat} (hi : i < p.chunk) :
    (windowOf p m e)[i]? = some (m.read (windowSlot p e i)) := by
  rw [windowOf, List.getElem?_map, List.getElem?_range hi, Option.map_some]

/-- RBWIN where the chunk operation is due: the ring is read and stays as it is. -/
theorem exec_rbwin (hat : consAt s .chunk) : exec .rbwin s = .next { s with
    spectral := { s.spectral with win := windowOf s.hw s.ring s.spectral.idx }
    cons := { s.cons with part := .gathered } } :=
  exec_of_due (p := .rbwin) hat

/-- The example of R182: CHUNK 4, RINGLEN 12, the window that ends at slot 1. -/
theorem windowSlots_example {p : Params} (hchunk : p.log2ChunkPred = 1) (hlook : p.lookaheadPred = 0) :
    (List.range 4).map (windowSlot p 1) = [10, 11, 0, 1] := by
  have hchunk' : p.chunk = 4 := by rw [Params.chunk, Params.log2Chunk, hchunk]; rfl
  have hring : p.ringLen = 12 := by rw [Params.ringLen, Params.lookahead, hchunk', hlook]
  have hslot : windowSlot p 1 = fun i => (1 + (12 - (4 - 1)) + i) % 12 := by
    funext i
    rw [windowSlot, hring, hchunk']
  rw [hslot]
  rfl

/-- Settles O24: the window is that of the sample just consumed, slot by slot. -/
theorem rbwinResult : Obligations.RbwinResult := by
  refine ⟨rfl, fun s hat => ⟨_, exec_rbwin hat, length_windowOf _ _ _, fun i hi => ?_⟩,
    fun p => windowSlots_example⟩
  rw [getElem?_windowOf _ _ _ hi, windowSlot_eq_emod]

/-! ## The two cursors -/

theorem exec_rbwr (hat : prodAt s .decoded) : exec .rbwr s = .next { s with
    ring := s.ring.write s.prod.wr s.prod.smp
    prod := { s.prod with wr := (s.prod.wr + 1) % s.hw.ringLen, part := .written } } :=
  stepIf_of s _ _ hat

theorem exec_rbrd (hat : consAt s .none) (hleft : (s.cons.rd : Int) ≠ s.cons.lim) : exec .rbrd s = .next { s with
    spectral := { s.spectral with idx := s.cons.rd, smp := s.ring.read s.cons.rd }
    cons := { s.cons with rd := (s.cons.rd + 1) % s.hw.ringLen, part := .taken } } :=
  stepIf_of s _ _ ⟨hat, hleft⟩

/-- Settles O23: the ring after RBWR is one write, whose reads the laws of the memory give. -/
theorem ringCursorOperations : Obligations.RingCursorOperations := by
  refine ⟨rfl, rfl, fun s hat hwf => ⟨_, exec_rbwr hat, ?_, ?_, ?_⟩, fun s => exec_rbrd⟩
  · exact Memory.write_wf _ _ hwf
  · exact Memory.read_write_same _ _ hwf
  · exact fun a ha => Memory.read_write_ne _ _ ha

end Sys2Proof.Machine
end

section
/-! PROOFS. The handoff (R184 to R191): SIGNAL and AWAIT, one equation per case of theirs, and the publications, each of
which differs from the one before it. -/

namespace Sys2Proof.Machine

variable {s : State}

/-! ## SIGNAL (R184 to R186) -/

/-- No cancellation to observe, for either agent's latch (R209, R231). -/
theorem not_cancelled {latch running : Bool} (hrunning : running = true) (hlatch : latch = false) :
    ¬(latch = true ∨ running = false) := by
  rintro (habort | hstopped)
  · exact Bool.false_ne_true (hlatch.symm.trans habort)
  · exact Bool.false_ne_true (hstopped.symm.trans hrunning)

/-- Cancellation goes before completion (R186). -/
theorem exec_signal_cancelled (hwaits : prodWaits s) (hcancel : prodCancelled s) :
    exec .signal s = .next (opProdCancel s) :=
  congrArg Host.Outcome.next ((if_pos hwaits).trans (if_pos hcancel))

theorem exec_signal_done (hwaits : prodWaits s) (hcancel : ¬prodCancelled s) (hdone : s.hand.workerDone = true) :
    exec .signal s = .next (opSignalComplete s) :=
  congrArg Host.Outcome.next ((if_pos hwaits).trans ((if_neg hcancel).trans (if_pos hdone)))

/-- PROD stays blocked until the previous handoff is done (R184; log entry 12). -/
theorem exec_signal_blocked (hwaits : prodWaits s) (hcancel : ¬prodCancelled s) (hdone : s.hand.workerDone = false) :
    exec .signal s = .next s :=
  congrArg Host.Outcome.next
    ((if_pos hwaits).trans ((if_neg hcancel).trans (if_neg (Bool.eq_false_iff.1 hdone))))

theorem opSignalComplete_sigWait (h : s.prod.pstate = .sigWait) : opSignalComplete s = { s with
    hand := { position := s.prod.ppend, workerDone := false }
    prod := { s.prod with pstate := .run } } := by
  simp only [opSignalComplete, h]; rfl

theorem opSignalComplete_sigWaitLast (h : s.prod.pstate = .sigWaitLast) : opSignalComplete s = { s with
    hand := { position := s.prod.ppend, workerDone := false }
    prod := { s.prod with ppend := -1, pstate := .sigWaitEnd } } := by
  simp only [opSignalComplete, h]; rfl

theorem opSignalComplete_sigWaitEnd (h : s.prod.pstate = .sigWaitEnd) : opSignalComplete s = { s with
    hand := { position := s.prod.ppend, workerDone := false }
    prod := { s.prod with pexit := .eos, pstate := .exit } } := by
  simp only [opSignalComplete, h]; rfl

/-- Settles O25: with no cancellation `workerDone` decides, and the wait state says how PROD goes on. -/
theorem signalResult : Obligations.SignalResult := by
  refine ⟨rfl, fun s hrunning hlatch => ?_⟩
  have hcancel : ¬prodCancelled s := not_cancelled hrunning hlatch
  refine ⟨fun hdone => ⟨fun h => ?_, fun h => ?_, fun h => ?_⟩,
    fun hdone hwaits => exec_signal_blocked hwaits hcancel hdone⟩
  · rw [exec_signal_done (.inl h) hcancel hdone, opSignalComplete_sigWait h]
  · rw [exec_signal_done (.inr (.inl h)) hcancel hdone, opSignalComplete_sigWaitLast h]
  · rw [exec_signal_done (.inr (.inr h)) hcancel hdone, opSignalComplete_sigWaitEnd h]

theorem exec_pexit_waiting (hwaits : prodWaits s) (hcancel : prodCancelled s) :
    exec .pexit s = .next (opProdCancel s) :=
  stepIf_of s _ _ ⟨.inr hwaits, hcancel⟩

/-- In a SIGNAL wait PROD takes no step of its loop (R200). -/
theorem exec_loop_of_waits {i : Instr} (hwaits : prodWaits s)
    (hi : i ∈ [Instr.rbwr, .ppoll, .pfetch, .pdecode, .pstep, .peos, .pfail]) : exec i s = .next s := by
  rcases eq_or_ne i .ppoll with rfl | hpoll
  · rfl
  · have hworker : i ∈ [Instr.rbwr, .pfetch, .pdecode, .pstep, .peos, .pfail] := by
      simpa only [List.mem_cons, hpoll, false_or] using hi
    exact exec_of_not_enabled fun henabled =>
      not_prodWorks_of_waits hwaits (prodWorks_of_enabled hworker henabled)

/-- Settles O26: SIGNAL and PEXIT are then the same cancellation, and the other steps need PROD in its loop. -/
theorem signalCancellation : Obligations.SignalCancellation := by
  intro s hwaits hcancel
  have hsignal := exec_signal_cancelled hwaits hcancel
  refine ⟨?_, ?_, fun i hi => exec_loop_of_waits hwaits hi⟩
  · rw [hsignal, opProdCancel_eq]
  · rw [hsignal, exec_pexit_waiting hwaits hcancel]

/-! ## AWAIT (R187 to R189) -/

theorem exec_await_drained (hat : consAt s .none) (hdrained : (s.cons.rd : Int) = s.cons.lim) :
    exec .await s = .next (opAwaitEnter s) := by
  have hdrain : s.cons.cstate ≠ .await := by rw [hat.1.1]; nofun
  exact congrArg Host.Outcome.next ((if_neg hdrain).trans (if_pos ⟨hat, hdrained⟩))

/-- Cancellation goes before completion (R189). -/
theorem exec_await_cancelled (hawait : s.cons.cstate = .await) (hcancel : consCancelled s) :
    exec .await s = .next (opConsCancel s) :=
  congrArg Host.Outcome.next ((if_pos hawait).trans (if_pos hcancel))

theorem exec_await_new (hawait : s.cons.cstate = .await) (hcancel : ¬consCancelled s)
    (hnew : s.hand.position ≠ s.cons.prev) : exec .await s = .next (opAwaitComplete s) :=
  congrArg Host.Outcome.next ((if_pos hawait).trans ((if_neg hcancel).trans (if_pos hnew)))

/-- CONS stays blocked until there is a new position (R188; log entry 12). -/
theorem exec_await_blocked (hawait : s.cons.cstate = .await) (hcancel : ¬consCancelled s)
    (hold : s.hand.position = s.cons.prev) : exec .await s = .next s :=
  congrArg Host.Outcome.next ((if_pos hawait).trans ((if_neg hcancel).trans (if_neg (not_not.2 hold))))

theorem exec_cexit_waiting (hawait : s.cons.cstate = .await) (hcancel : consCancelled s) :
    exec .cexit s = .next (opConsCancel s) :=
  stepIf_of s _ _ ⟨.inr hawait, hcancel⟩

/-- Settles O27: entry while draining; in the wait cancellation first, then the position decides. -/
theorem awaitResult : Obligations.AwaitResult := by
  refine ⟨rfl, fun s hat hdrained => ?_, fun s hawait hrunning hlatch => ?_, fun s hawait hcancel => ?_⟩
  · rw [exec_await_drained hat hdrained, opAwaitEnter_eq]
  · have hcancel : ¬consCancelled s := not_cancelled hrunning hlatch
    refine ⟨exec_await_blocked hawait hcancel, fun hnew hend => ?_, fun hnew hcursor => ?_⟩
    · rw [exec_await_new hawait hcancel hnew, opAwaitComplete_eq, if_pos hend]
    · rw [exec_await_new hawait hcancel hnew, opAwaitComplete_eq, if_neg hcursor]
  · rw [exec_await_cancelled hawait hcancel, exec_cexit_waiting hawait hcancel]

/-! ## Publications (R191) -/

/-- In a wait the slot holds a cursor, and PROD has a cursor further on, or the sentinel, to publish. -/
theorem prodClause_waits (hwaits : prodWaits s) (h : prodClause s) :
    s.hand.position ≠ -1 ∧ ((s.prod.ppend = s.prod.wr ∧ 0 < unpublished s) ∨ s.prod.ppend = -1) := by
  rcases hwaits with hwait | hwait | hwait
  · obtain ⟨hposition, -, hcursor, hbatch⟩ := (prodClause_sigWait hwait).1 h
    exact ⟨hposition, .inl ⟨hcursor, hbatch ▸ batch_pos s.hw⟩⟩
  · obtain ⟨hposition, -, hcursor, hleftover, -⟩ := (prodClause_sigWaitLast hwait).1 h
    exact ⟨hposition, .inl ⟨hcursor, hleftover⟩⟩
  · obtain ⟨hposition, -, hsentinel, -⟩ := (prodClause_sigWaitEnd hwait).1 h
    exact ⟨hposition, .inr hsentinel⟩

theorem ppend_ne_position (hinv : Inv s) (hwaits : prodWaits s) (h : prodClause s) :
    s.prod.ppend ≠ s.hand.position := by
  obtain ⟨hposition, ⟨hcursor, hfurther⟩ | hsentinel⟩ := prodClause_waits hwaits h
  · rw [hcursor]
    exact mt (unpublished_eq_zero hinv hposition).2 hfurther.ne'
  · rw [hsentinel]
    exact hposition.symm

/-- A waiting CONS that has received what the slot holds compares with just that position (R187, R188). -/
theorem prev_eq_position (hawait : awaitClause s) (hdone : s.hand.workerDone = true) :
    s.cons.prev = s.hand.position := by
  obtain ⟨-, hprev, hreceived, -⟩ := hawait
  rw [hprev, hreceived hdone]

/-- Settles O31: what PROD waits to publish is ahead of the position, or the sentinel, and `prev` is the position. -/
theorem publicationsDiffer : Obligations.PublicationsDiffer := by
  intro s hinv hhandoff hwaits
  obtain ⟨hprod, hcons⟩ := hhandoff.clauses (hinv.sup_of_prod (prodAtWork_of_waits hwaits).1)
  have hdiffers := ppend_ne_position hinv hwaits hprod
  refine ⟨hdiffers, fun hawait hdone => ?_⟩
  rwa [prev_eq_position ((consClause_await hawait).1 hcons) hdone]

end Sys2Proof.Machine
end

section
/-! PROOFS. PROD's loop (R201 to R208): PFETCH by SRC's answer, one equation for each operation that uses an answer, and
the exit codes that each operation may record (R38). -/

namespace Sys2Proof.Machine

variable {s t : State} {i : Instr} {f : List Byte}

/-! ## PFETCH (R201) -/

theorem answer_frame {src : Source} {rest : List Byte} (h : src.bytes = f ++ rest) :
    src.answer f.length = (some (.frame f), { src with bytes := rest }) := by
  simp [Source.answer, h]

theorem answer_more {src : Source} {n : Nat} (hshort : src.bytes.length < n) (htail : src.tail = .more) :
    src.answer n = (none, src) := by
  simp [Source.answer, hshort, htail]

theorem answer_eos {src : Source} {n : Nat} (hshort : src.bytes.length < n) (htail : src.tail = .eos) :
    src.answer n = (some .eos, { src with bytes := [] }) := by
  simp [Source.answer, hshort, htail]

theorem answer_fail {src : Source} {n : Nat} (hshort : src.bytes.length < n) (htail : src.tail = .fail) :
    src.answer n = (some .fail, src) := by
  simp [Source.answer, hshort, htail]

/-- A whole frame, the end and a failure are answers; only bytes still to come are none. -/
theorem exists_answer {src : Source} {n : Nat} (h : n ≤ src.bytes.length ∨ src.tail ≠ .more) :
    ∃ a rest, src.answer n = (some a, rest) := by
  rcases src.answer_cases n with ⟨-, heq⟩ | ⟨hshort, hmore, -⟩ | ⟨-, -, heq⟩ | ⟨-, -, heq⟩
  · exact ⟨_, _, heq⟩
  · exact absurd hmore (h.resolve_left hshort.not_ge)
  · exact ⟨_, _, heq⟩
  · exact ⟨_, _, heq⟩

/-- An answer is taken from the stream and kept for its use (log entry 11). -/
theorem exec_pfetch_answer (hat : prodAt s .none) (hnone : s.prod.fetched = none) {a : Answer} {src : Source}
    (h : s.src.answer s.cfg.bpf.toNat = (some a, src)) :
    exec .pfetch s = .next { s with src := src, prod := { s.prod with fetched := some a } } := by
  refine (stepIf_of s _ _ ⟨hat, hnone⟩).trans ?_
  simp only [opPfetch, h]; rfl

/-- Without an answer PROD waits for it. -/
theorem exec_pfetch_waits (hat : prodAt s .none) (hnone : s.prod.fetched = none) {src : Source}
    (h : s.src.answer s.cfg.bpf.toNat = (none, src)) : exec .pfetch s = .next s := by
  refine (stepIf_of s _ _ ⟨hat, hnone⟩).trans ?_
  simp only [opPfetch, h]

/-- Settles O34: the stream's answer, by its bytes and then by what follows them, and what PFETCH does with it. -/
theorem pfetchResult : Obligations.PfetchResult := by
  refine ⟨rfl, fun s hat hnone => ⟨fun f rest hbytes hlength => ?_, fun hshort => ⟨fun hmore => ?_, fun heos => ?_,
    fun hfail => ?_⟩⟩⟩
  · exact exec_pfetch_answer hat hnone (hlength ▸ answer_frame hbytes)
  · exact exec_pfetch_waits hat hnone (answer_more hshort hmore)
  · exact exec_pfetch_answer hat hnone (answer_eos hshort heos)
  · exact exec_pfetch_answer hat hnone (answer_fail hshort hfail)

/-! ## A frame (R203, R205) -/

theorem exec_pdecode (hat : prodAt s .none) (hf : s.prod.fetched = some (.frame f)) :
    exec .pdecode s = .next ((opPdecode s).prodTo .decoded) :=
  stepIf_of s _ _ ⟨hat, hasFrame_iff.2 ⟨f, hf⟩⟩

theorem exec_pstep_whole (hat : prodAt s .none) (hf : s.prod.fetched = some (.frame f)) :
    exec .pstep s = .next (opPstep s) :=
  congrArg Host.Outcome.next (if_pos ⟨hat, hasFrame_iff.2 ⟨f, hf⟩⟩)

/-- PSTEP's own word after PDECODE and RBWR (R116; log entry 3). -/
theorem exec_pstep_written (hat : prodAt s .written) : exec .pstep s = .next (opCountFrame s) :=
  next_of_second (fun hwhole => nomatch hat.2.symm.trans hwhole.1.2) hat

/-- The whole next state of PSTEP: a full batch asks for a publication of the cursor after the write (R205). -/
theorem opPstep_eq (hat : prodAt s .none) (hf : s.prod.fetched = some (.frame f)) : opPstep s =
    { s with
        ring := s.ring.write s.prod.wr (sampleOf s.cfg f)
        prod := { s.prod with
          smp := sampleOf s.cfg f
          wr := nextSlot s.hw s.prod.wr
          nframes := s.prod.nframes + 1
          run := if s.prod.run + 1 = s.hw.batch then 0 else s.prod.run + 1
          ppend := if s.prod.run + 1 = s.hw.batch then (nextSlot s.hw s.prod.wr : Nat) else s.prod.ppend
          pstate := if s.prod.run + 1 = s.hw.batch then .sigWait else .run
          fetched := none } } := by
  obtain ⟨⟨hrun, -, -⟩, hpart⟩ := hat
  rw [opPstep_of_frame hf]
  by_cases hfull : s.prod.run + 1 = s.hw.batch
  · simp only [if_pos hfull, hpart]
  · simp only [if_neg hfull, hpart, hrun]

theorem runOps_cons {is : List Instr} (h : exec i s = .next t) : runOps (i :: is) s = runOps is t := by rw [runOps, h]

/-- PSTEP taken part by part does what it does taken whole (R116; log entry 3). -/
theorem runOps_pstepParts (hat : prodAt s .none) (hf : s.prod.fetched = some (.frame f)) :
    runOps [.pdecode, .rbwr, .pstep] s = exec .pstep s := by
  have hworks : prodWorks (opPdecode s) := by rw [opPdecode_of_frame s hf]; exact hat.1
  calc runOps [.pdecode, .rbwr, .pstep] s
      = runOps [.rbwr, .pstep] ((opPdecode s).prodTo .decoded) := runOps_cons (exec_pdecode hat hf)
    _ = runOps [.pstep] ((opRbwr (opPdecode s)).prodTo .written) := runOps_cons (exec_rbwr ⟨hworks, rfl⟩)
    _ = .next (opCountFrame ((opRbwr (opPdecode s)).prodTo .written)) := runOps_single (exec_pstep_written ⟨hworks, rfl⟩)
    _ = .next (opPstep s) := congrArg Host.Outcome.next (opCountFrame_prodTo _ .written)
    _ = exec .pstep s := (exec_pstep_whole hat hf).symm

/-- Settles O37: the equations of PDECODE and PSTEP, whose ring is one write, and the parts of PSTEP. -/
theorem pdecodeAndPstepResult : Obligations.PdecodeAndPstepResult := by
  refine ⟨rfl, rfl, fun s f hat hf => ⟨?_, fun hwf => ?_, runOps_pstepParts hat hf⟩⟩
  · rw [exec_pdecode hat hf, opPdecode_of_frame s hf]; rfl
  · refine ⟨_, (exec_pstep_whole hat hf).trans (congrArg Host.Outcome.next (opPstep_eq hat hf)), ?_, ?_, ?_⟩
    · exact Memory.write_wf _ _ hwf
    · exact Memory.read_write_same _ _ hwf
    · exact fun a ha => Memory.read_write_ne _ _ ha

/-! ## The end of the stream (R206) -/

theorem exec_peos (hat : prodAt s .none) (heos : s.prod.fetched = some .eos) : exec .peos s = .next (opPeos s) :=
  stepIf_of s _ _ ⟨hat, heos⟩

/-- Settles O38: samples not yet published are the leftover. -/
theorem peosResult : Obligations.PeosResult := by
  refine ⟨rfl, fun s hat heos => ⟨fun hleftover => ?_, fun hnone => ?_⟩⟩
  · rw [exec_peos hat heos, opPeos_eq, if_pos hleftover]
  · rw [exec_peos hat heos, opPeos_eq, if_neg hnone.not_gt]

/-! ## A failure (R208) -/

theorem opPdecode_pexit (s : State) : (opPdecode s).prod.pexit = s.prod.pexit := by
  unfold opPdecode
  split <;> rfl

theorem opPfetch_pexit (s : State) : (opPfetch s).prod.pexit = s.prod.pexit := by
  unfold opPfetch
  split <;> rfl

theorem opCountFrame_pexit (s : State) : (opCountFrame s).prod.pexit = s.prod.pexit := by
  unfold opCountFrame
  split <;> rfl

theorem opPeos_pexit (s : State) : (opPeos s).prod.pexit = s.prod.pexit := by
  unfold opPeos
  split <;> rfl

theorem opFinish_pexit (s : State) : (opFinish s).prod.pexit = s.prod.pexit := by
  rw [prod_opFinish]
  unfold opFinishProd
  split
  · rfl
  · exact opCountFrame_pexit (opRbwr s)
  · exact opCountFrame_pexit s

theorem opProdCancel_pexit_ne (s : State) : (opProdCancel s).prod.pexit ≠ .failed := by
  rw [opProdCancel_eq]
  show (if _ then _ else _ : PExit) ≠ .failed
  split <;> nofun

theorem opSignalComplete_pexit (hwaits : prodWaits s) :
    (opSignalComplete s).prod.pexit = s.prod.pexit ∨ (opSignalComplete s).prod.pexit = .eos := by
  obtain ⟨pp, px, ps, heq, ⟨-, -, rfl, -⟩ | ⟨-, -, rfl, -⟩ | ⟨-, -, rfl, -⟩⟩ := opSignalComplete_cases s hwaits
  · exact .inl (by rw [heq])
  · exact .inl (by rw [heq])
  · exact .inr (by rw [heq])

/-- Every operation but PFAIL keeps PROD's exit code or records another than FAILED (R38, R208). -/
theorem pexit_kept_or_ne_failed (hi : i ≠ .pfail) (h : OpTaken s i t) :
    t.prod.pexit = s.prod.pexit ∨ t.prod.pexit ≠ .failed := by
  cases h with
  | pfail => exact absurd rfl hi
  | started => exact .inr nofun
  | stop => exact .inl (opFinish_pexit s)
  | pfetch => exact .inl (opPfetch_pexit s)
  | pdecode => exact .inl (opPdecode_pexit s)
  | pstep => exact .inl ((opCountFrame_pexit (opRbwr (opPdecode s))).trans (opPdecode_pexit s))
  | pstepEnd => exact .inl (opCountFrame_pexit s)
  | peos => exact .inl (opPeos_pexit s)
  | pexit | signalCancel => exact .inr (opProdCancel_pexit_ne s)
  | signalComplete hwaits =>
    exact (opSignalComplete_pexit hwaits).imp_right fun heos => by rw [heos]; nofun
  | awaitCancel | cexit => exact .inl (congrArg Producer.pexit (consOnly_opConsCancel s).prod)
  | awaitComplete => exact .inl (congrArg Producer.pexit (consOnly_opAwaitComplete s).prod)
  | cstep => exact .inl (congrArg Producer.pexit (consOnly_opCstep s).prod)
  | part p => exact .inl (congrArg Producer.pexit (consOnly_part s p).prod)
  | busy | configError | openFailure | expire | join | rbwr | awaitEnter | rbrd => exact .inl rfl

theorem exec_pfail (hat : prodAt s .none) (hfail : s.prod.fetched = some .fail) :
    exec .pfail s = .next (raise .decodeFailure s) :=
  stepIf_of s _ _ ⟨hat, hfail⟩

/-- Settles O39: PFAIL is the entry of E2, and the other operations record other exit codes. -/
theorem pfailResult : Obligations.PfailResult := by
  refine ⟨rfl, fun s hat hfail => ?_, fun i s t hi hexec hfailed => ?_⟩
  · rw [exec_pfail hat hfail, raise_decodeFailure]
  · rcases exec_cases hexec with rfl | htaken
    · exact hfailed
    · have hkept := (pexit_kept_or_ne_failed hi htaken).resolve_right fun hne => hne hfailed
      exact hkept.symm.trans hfailed

end Sys2Proof.Machine
end

section
/-! PROOFS. Cancellation (R200, R209, R210, R220, R231, R323): the two exits, what the polls find, and PROD blocked in a
wait once CONS has gone. -/

namespace Sys2Proof.Machine

variable {s t : State} {i : Instr}

/-! ## PEXIT and CEXIT (R209, R231) -/

theorem exec_pexit (hlive : s.prod.pstate = .run ∨ prodWaits s) (hcancel : prodCancelled s) :
    exec .pexit s = .next (opProdCancel s) :=
  stepIf_of s _ _ ⟨hlive, hcancel⟩

theorem exec_cexit (hlive : s.cons.cstate = .drain ∨ s.cons.cstate = .await) (hcancel : consCancelled s) :
    exec .cexit s = .next (opConsCancel s) :=
  stepIf_of s _ _ ⟨hlive, hcancel⟩

/-- Settles O40: the exit code is ABORTED exactly where the agent's latch is set. -/
theorem cooperativeExit : Obligations.CooperativeExit := by
  refine ⟨rfl, rfl, fun s hlive => ⟨fun habort => ?_, fun hlatch hstopped => ?_⟩,
    fun s hlive => ⟨fun habort => ?_, fun hlatch hstopped => ?_⟩⟩
  · rw [exec_pexit hlive (.inl habort), opProdCancel_eq, if_pos habort]
  · rw [exec_pexit hlive (.inr hstopped), opProdCancel_eq, if_neg (Bool.eq_false_iff.1 hlatch)]
  · rw [exec_cexit hlive (.inl habort), opConsCancel_eq, if_pos habort]
  · rw [exec_cexit hlive (.inr hstopped), opConsCancel_eq, if_neg (Bool.eq_false_iff.1 hlatch)]

/-! ## The polls (R200, R220) -/

/-- A step that changes what `f` reads is not the step that changes nothing. -/
theorem next_ne {α : Type} (f : State → α) (h : f t ≠ f s) : (Host.Outcome.next t : Result) ≠ .next s :=
  fun heq => h (congrArg f (Host.Outcome.next.inj heq))

theorem not_prodWorks_of_cancelled (h : prodCancelled s) : ¬prodWorks s :=
  fun ⟨_, hrunning, hlatch⟩ => not_cancelled hrunning hlatch h

theorem not_consWorks_of_cancelled (h : consCancelled s) : ¬consWorks s :=
  fun ⟨_, hrunning, hlatch⟩ => not_cancelled hrunning hlatch h

theorem not_prodWaits_of_run (h : s.prod.pstate = .run) : ¬prodWaits s := by
  rintro (hwait | hwait | hwait) <;> exact nomatch h.symm.trans hwait

theorem prodWorks_or_waits_of_enabled (hi : i ∈ [Instr.rbwr, .signal, .pfetch, .pdecode, .pstep, .peos, .pfail])
    (h : enabled i s) : prodWorks s ∨ prodWaits s := by
  cases i with
  | signal => exact .inr h
  | rbwr | pfetch | pdecode | pstep | peos | pfail => exact .inl (prodWorks_of_enabled (by decide) h)
  | _ => exact absurd hi (by decide)

theorem consWorks_or_awaits_of_enabled (hi : i ∈ [Instr.cmul, .cadd, .csub, .cdivs, .cabs, .carg, .fft, .bitrev, .twid,
      .bfly, .bfpass, .rbrd, .rbwin, .await, .cstep, .window, .acc, .cchunk, .ccol]) (h : enabled i s) :
    consWorks s ∨ s.cons.cstate = .await := by
  cases i with
  | await => exact h.symm.imp_left fun hdrained => hdrained.1.1
  | rbrd | rbwin | cstep | window | acc | cchunk | ccol => exact .inl (consWorks_of_enabled (by decide) h)
  | cmul | cadd | csub | cdivs | cabs | carg | fft | bitrev | twid | bfly | bfpass =>
    exact .inl (unitInUse_of_enabled (by decide) h).1
  | _ => exact absurd hi (by decide)

/-- With a cancellation PROD in its loop does nothing but exit (R200). -/
theorem prodLoop_cancelled (hrun : s.prod.pstate = .run) (hcancel : prodCancelled s) :
    exec .pexit s ≠ .next s ∧
    ∀ i ∈ [Instr.rbwr, .signal, .pfetch, .pdecode, .pstep, .peos, .pfail], exec i s = .next s := by
  refine ⟨?_, fun i hi => exec_of_not_enabled fun henabled => ?_⟩
  · rw [exec_pexit (.inl hrun) hcancel]
    exact next_ne (·.prod.pstate) (by rw [opProdCancel_pstate, hrun]; nofun)
  · exact (prodWorks_or_waits_of_enabled hi henabled).elim (not_prodWorks_of_cancelled hcancel) (not_prodWaits_of_run hrun)

/-- With a cancellation CONS, draining, does nothing but exit (R220). -/
theorem consLoop_cancelled (hdrain : s.cons.cstate = .drain) (hcancel : consCancelled s) :
    exec .cexit s ≠ .next s ∧
    ∀ i ∈ [Instr.cmul, .cadd, .csub, .cdivs, .cabs, .carg, .fft, .bitrev, .twid, .bfly, .bfpass, .rbrd, .rbwin, .await,
      .cstep, .window, .acc, .cchunk, .ccol], exec i s = .next s := by
  refine ⟨?_, fun i hi => exec_of_not_enabled fun henabled => ?_⟩
  · rw [exec_cexit (.inl hdrain) hcancel]
    exact next_ne (·.cons.cstate) (by rw [opConsCancel_cstate, hdrain]; nofun)
  · exact (consWorks_or_awaits_of_enabled hi henabled).elim (not_consWorks_of_cancelled hcancel)
      fun hawait => nomatch hdrain.symm.trans hawait

theorem exec_pfetch_ne (hat : prodAt s .none) (hnone : s.prod.fetched = none)
    (hanswer : s.cfg.bpf.toNat ≤ s.src.bytes.length ∨ s.src.tail ≠ .more) : exec .pfetch s ≠ .next s := by
  obtain ⟨a, src, h⟩ := exists_answer hanswer
  rw [exec_pfetch_answer hat hnone h]
  exact next_ne (·.prod.fetched) (by rw [hnone]; nofun)

/-- The ring has more than one slot. -/
theorem nextSlot_ne (p : Params) (a : Nat) : nextSlot p a ≠ a := by
  have hlong : 2 ≤ p.ringLen := (two_le_chunk p).trans (chunk_le_ringLen p)
  unfold nextSlot
  intro heq
  rcases Nat.lt_or_ge (a + 1) p.ringLen with hlt | hge
  · rw [Nat.mod_eq_of_lt hlt] at heq
    omega
  · have hlast : a + 1 = p.ringLen := by
      have := Nat.mod_lt (a + 1) (ringLen_pos p)
      omega
    rw [hlast, Nat.mod_self] at heq
    omega

theorem opCstep_rd (s : State) : (opCstep s).cons.rd = nextSlot s.hw s.cons.rd :=
  (drainsOn_opNextParts 3 ((opRbrd s).consTo .taken)).rd

/-- Samples are left: the next one is taken, and AWAIT is not entered (R220). -/
theorem consLoop_sampleLeft (hat : consAt s .none) (hleft : (s.cons.rd : Int) ≠ s.cons.lim) :
    exec .await s = .next s ∧ exec .cstep s ≠ .next s := by
  constructor
  · refine exec_of_not_enabled fun henabled => henabled.elim (fun hawait => ?_) fun hdrained => hleft hdrained.2
    exact nomatch hat.1.1.symm.trans hawait
  · have hcstep : exec .cstep s = .next (opCstep s) := congrArg Host.Outcome.next (if_pos ⟨hat, hleft⟩)
    rw [hcstep]
    exact next_ne (·.cons.rd) (by rw [opCstep_rd]; exact nextSlot_ne _ _)

/-- The batch is drained: AWAIT is entered, and there is no sample to take (R220). -/
theorem consLoop_drained (hat : consAt s .none) (hdrained : (s.cons.rd : Int) = s.cons.lim) :
    exec .cstep s = .next s ∧ exec .await s ≠ .next s := by
  constructor
  · refine exec_of_not_enabled fun henabled => henabled.elim (fun hleft => hleft.2 hdrained) fun htaken => ?_
    exact nomatch consAt_unique hat htaken
  · rw [exec_await_drained hat hdrained]
    exact next_ne (·.cons.cstate) (by rw [hat.1.1]; nofun)

/-- Settles O33: a poll is no step; a cancellation stops the agent's work, and without one its exit is not enabled. -/
theorem polls : Obligations.Polls := by
  refine ⟨rfl, rfl, fun s => ⟨rfl, rfl⟩,
    fun s hrun => ⟨prodLoop_cancelled hrun, fun hlatch hrunning => ⟨?_, fun hpart => ?_⟩⟩,
    fun s hdrain => ⟨consLoop_cancelled hdrain, fun hlatch hrunning => ⟨?_, fun hpart => ?_, fun hpart => ?_⟩⟩⟩
  · exact exec_of_not_enabled fun henabled => not_cancelled hrunning hlatch henabled.2
  · exact exec_pfetch_ne ⟨⟨hrun, hrunning, hlatch⟩, hpart⟩
  · exact exec_of_not_enabled fun henabled => not_cancelled hrunning hlatch henabled.2
  · exact consLoop_sampleLeft ⟨⟨hdrain, hrunning, hlatch⟩, hpart⟩
  · exact consLoop_drained ⟨⟨hdrain, hrunning, hlatch⟩, hpart⟩

/-! ## PROD blocked once CONS has gone (R210, R323) -/

/-- CONS has left its loop. -/
def CState.Gone (c : CState) : Prop := c = .exit ∨ c = .idle

/-- No edge but START's leads back into the loop (R27). -/
theorem gone_of_consEdge {c d : CState} (hedge : (i, c, d) ∈ consEdges) (hi : i ≠ .start) (hgone : c.Gone) : d.Gone := by
  have hedges : ∀ e ∈ consEdges, e.1 ≠ .start → (e.2.1 = .exit ∨ e.2.1 = .idle) → (e.2.2 = .exit ∨ e.2.2 = .idle) := by
    decide
  exact hedges _ hedge hi hgone

/-- PROD leaves a wait by SIGNAL or PEXIT alone (R27). -/
theorem signal_or_pexit_of_prodEdge {p q : PState} (hedge : (i, p, q) ∈ prodEdges)
    (hwaits : p = .sigWait ∨ p = .sigWaitLast ∨ p = .sigWaitEnd) : i = .signal ∨ i = .pexit := by
  have hedges : ∀ e ∈ prodEdges, (e.2.1 = .sigWait ∨ e.2.1 = .sigWaitLast ∨ e.2.1 = .sigWaitEnd) →
      (e.1 = .signal ∨ e.1 = .pexit) := by
    decide
  exact hedges _ hedge hwaits

/-- SIGNAL publishes only where the previous handoff is done (R185). -/
theorem exec_signal_hand (hdone : s.hand.workerDone = false) (hexec : exec .signal s = .next t) : t.hand = s.hand := by
  by_cases hwaits : prodWaits s
  · by_cases hcancel : prodCancelled s
    · obtain rfl := Host.Outcome.next.inj ((exec_signal_cancelled hwaits hcancel).symm.trans hexec)
      exact (opProdCancel_owned s).2.2
    · obtain rfl := Host.Outcome.next.inj ((exec_signal_blocked hwaits hcancel hdone).symm.trans hexec)
      rfl
  · obtain rfl := Host.Outcome.next.inj ((exec_of_not_enabled (i := .signal) hwaits).symm.trans hexec)
    rfl

/-- CONS gone enters no AWAIT (R187). -/
theorem exec_await_of_gone (hgone : s.cons.cstate.Gone) : exec .await s = .next s := by
  refine exec_of_not_enabled fun henabled => ?_
  have hlive : s.cons.cstate = .await ∨ s.cons.cstate = .drain := henabled.imp_right fun hdrained => hdrained.1.1.1
  obtain ⟨hidle, hexit⟩ := consAtWork_of_states hlive
  exact hgone.elim hexit hidle

/-- With CONS gone and the handoff not done nobody writes the slot but an accepted START (R183). -/
theorem hand_kept_of_gone (hi : i ≠ .start) (hgone : s.cons.cstate.Gone) (hdone : s.hand.workerDone = false)
    (hexec : exec i s = .next t) : t.hand = s.hand := by
  obtain ⟨-, -, hhand, -⟩ := ownershipOfState i s t hexec
  by_cases hsignal : i = .signal
  · exact exec_signal_hand hdone (hsignal ▸ hexec)
  · by_cases hawait : i = .await
    · obtain rfl := Host.Outcome.next.inj ((exec_await_of_gone hgone).symm.trans (hawait ▸ hexec))
      rfl
    · exact hhand hi hsignal hawait

/-- A wait whose handoff is not done is left by a cancellation alone (R184, R186, R209). -/
theorem pstate_kept_of_blocked (hinv : Inv s) (hwaits : prodWaits s) (hcancel : ¬prodCancelled s)
    (hdone : s.hand.workerDone = false) (hexec : exec i s = .next t) : t.prod.pstate = s.prod.pstate := by
  obtain ⟨-, hmoves, -⟩ := agentsMoveAlongListedEdges i s t hinv hexec
  rcases hmoves with hstays | hedge
  · exact hstays
  · have hblocked : exec i s = .next s := by
      rcases signal_or_pexit_of_prodEdge hedge hwaits with rfl | rfl
      · exact exec_signal_blocked hwaits hcancel hdone
      · exact exec_of_not_enabled fun henabled => hcancel henabled.2
    obtain rfl := Host.Outcome.next.inj (hblocked.symm.trans hexec)
    rfl

/-- Settles O58: CONS's edges lead it nowhere but to idle, so the slot stays as it is, and PROD with it. -/
theorem producerBlockedOnceConsumerGone : Obligations.ProducerBlockedOnceConsumerGone := by
  intro i s t hinv hi hexec hgone hdone
  refine ⟨?_, ?_, fun hwaits _ hrunning hlatch => ?_⟩
  · rw [hand_kept_of_gone hi hgone hdone hexec]
    exact hdone
  · obtain ⟨-, -, hmoves, -⟩ := agentsMoveAlongListedEdges i s t hinv hexec
    rcases hmoves with hstays | hedge
    · rw [hstays]
      exact hgone
    · exact gone_of_consEdge hedge hi hgone
  · have hstate := pstate_kept_of_blocked hinv hwaits (not_cancelled hrunning hlatch) hdone hexec
    have hwork := prodAtWork_of_waits hwaits
    refine ⟨hstate, ?_⟩
    rw [hinv.pexit_none hwork, (hinv.exec hexec).pexit_none (hstate ▸ hwork)]

end Sys2Proof.Machine
end

section
/-! PROOFS. The least and the greatest value of a column (R229). -/

namespace Sys2Proof.Machine

variable {x y : F64}

theorem fLe_of_not_fLt (hx : fIsNaN x = false) (hy : fIsNaN y = false) (h : ¬fLt y x = true) : fLe x y = true :=
  fLe_iff.2 ⟨hx, hy, not_lt.1 fun hlt => h (fLt_iff.2 ⟨hy, hx, hlt⟩)⟩

theorem fLe_of_fLt (h : fLt x y = true) : fLe x y = true := by
  obtain ⟨hx, hy, hlt⟩ := fLt_iff.1 h
  exact fLe_iff.2 ⟨hx, hy, hlt.le⟩

/-- The choice that `fMin` and `fMax` make: the first value where `c` holds, the second where only `d` does, and either
where neither does. -/
theorem choice_cases {c d e f : Prop} [Decidable c] [Decidable d] [Decidable e] [Decidable f] (x y : F64) :
    ((if c then x else if d then y else if e then x else if f then x else y) = x ∧ (c ∨ ¬d)) ∨
    ((if c then x else if d then y else if e then x else if f then x else y) = y ∧ ¬c) := by
  split
  case isTrue hc => exact .inl ⟨rfl, .inl hc⟩
  case isFalse hc =>
    split
    case isTrue => exact .inr ⟨rfl, hc⟩
    case isFalse hd =>
      split
      · exact .inl ⟨rfl, .inr hd⟩
      · split
        · exact .inl ⟨rfl, .inr hd⟩
        · exact .inr ⟨rfl, hc⟩

theorem fMin_cases (hx : fIsNaN x = false) (hy : fIsNaN y = false) :
    (fMin x y = x ∧ fLe x y = true) ∨ (fMin x y = y ∧ fLe y x = true) := by
  unfold fMin
  refine (choice_cases x y).imp (And.imp_right fun h => ?_) (And.imp_right fun h => ?_)
  · exact h.elim fLe_of_fLt (fLe_of_not_fLt hx hy)
  · exact fLe_of_not_fLt hy hx h

theorem fMax_cases (hx : fIsNaN x = false) (hy : fIsNaN y = false) :
    (fMax x y = x ∧ fLe y x = true) ∨ (fMax x y = y ∧ fLe x y = true) := by
  unfold fMax
  refine (choice_cases x y).imp (And.imp_right fun h => ?_) (And.imp_right fun h => ?_)
  · exact h.elim fLe_of_fLt (fLe_of_not_fLt hy hx)
  · exact fLe_of_not_fLt hx hy h

/-- An operation that answers one of its operands, ahead of the other one, leaves of a list one of its values, ahead of
all. -/
theorem foldl_extreme {op : F64 → F64 → F64} {ahead : F64 → F64 → Prop} {xs : List F64}
    (hself : ∀ x, fIsNaN x = false → ahead x x) (htrans : ∀ {x y z}, ahead x y → ahead y z → ahead x z)
    (hop : ∀ {x y}, fIsNaN x = false → fIsNaN y = false → (op x y = x ∧ ahead x y) ∨ (op x y = y ∧ ahead y x))
    (h : noNaN (x :: xs)) : xs.foldl op x ∈ x :: xs ∧ ∀ z ∈ x :: xs, ahead (xs.foldl op x) z := by
  induction xs generalizing x with
  | nil =>
    have hx := h x List.mem_cons_self
    exact ⟨List.mem_cons_self, fun z hz => List.mem_singleton.1 hz ▸ hself x hx⟩
  | cons y ys ih =>
    have hx := h x List.mem_cons_self
    have hy := h y (List.mem_cons_of_mem x List.mem_cons_self)
    have hys (z : F64) (hz : z ∈ ys) : fIsNaN z = false := h z (List.mem_cons_of_mem x (List.mem_cons_of_mem y hz))
    rw [List.foldl_cons]
    rcases hop hx hy with ⟨heq, hahead⟩ | ⟨heq, hahead⟩
    · rw [heq]
      obtain ⟨hmem, hall⟩ := ih (x := x) (List.forall_mem_cons.2 ⟨hx, hys⟩)
      obtain ⟨hfirst, hrest⟩ := List.forall_mem_cons.1 hall
      refine ⟨?_, List.forall_mem_cons.2 ⟨hfirst, List.forall_mem_cons.2 ⟨htrans hfirst hahead, hrest⟩⟩⟩
      rw [List.mem_cons] at hmem ⊢
      exact hmem.imp_right (List.mem_cons_of_mem y)
    · rw [heq]
      obtain ⟨hmem, hall⟩ := ih (x := y) (List.forall_mem_cons.2 ⟨hy, hys⟩)
      obtain ⟨hfirst, -⟩ := List.forall_mem_cons.1 hall
      exact ⟨List.mem_cons_of_mem x hmem, List.forall_mem_cons.2 ⟨htrans hfirst hahead, hall⟩⟩

variable {v : List F64}

theorem leastOf_spec (hne : v ≠ []) (h : noNaN v) : leastOf v ∈ v ∧ ∀ x ∈ v, fLe (leastOf v) x = true := by
  cases v with
  | nil => exact absurd rfl hne
  | cons x xs => exact foldl_extreme (ahead := fun x y => fLe x y = true) (fun _ => fLe_self) fLe_trans fMin_cases h

theorem greatestOf_spec (hne : v ≠ []) (h : noNaN v) :
    greatestOf v ∈ v ∧ ∀ x ∈ v, fLe x (greatestOf v) = true := by
  cases v with
  | nil => exact absurd rfl hne
  | cons x xs =>
    exact foldl_extreme (ahead := fun x y => fLe y x = true) (fun _ => fLe_self) (fun hxy hyz => fLe_trans hyz hxy)
      fMax_cases h

end Sys2Proof.Machine
end

section
/-! PROOFS. Rounding keeps order, and what a normalised value is (R106, R147, R229): a difference from the least value
is between `+0.0` and the range, and its quotient by the range is in `[0, 1]`. -/

namespace Sys2Proof.Machine

variable {x y z : F64}

/-! ## Units by the bits below the sign -/

theorem fScaled_congr (h : fMag x = fMag y) : fScaled x = fScaled y := by rw [fScaled, h, ← fScaled]

theorem fScaled_mono (h : fMag x ≤ fMag y) : fScaled x ≤ fScaled y := by
  by_cases hsub : fMag y / 2 ^ 52 = 0
  · have hsub' : fMag x / 2 ^ 52 = 0 := by omega
    rw [fScaled, fScaled, if_pos hsub, if_pos hsub']
    omega
  · have hy : fScaled y = (2 ^ 52 + fMag y % 2 ^ 52) * 2 ^ (fMag y / 2 ^ 52 - 1) := by rw [fScaled, if_neg hsub]
    rw [hy]
    exact fScaled_le (by omega) (by omega) (by omega)

/-- Of finite values the units and the bits below the sign are in the same order. -/
theorem fMag_le_of_fScaled_le (hx : fIsFinite x = true) (hy : fIsFinite y = true) (h : fScaled x ≤ fScaled y) :
    fMag x ≤ fMag y := by
  by_contra hgt
  have hunits : fScaled y = fScaled x := (fScaled_mono (not_le.1 hgt).le).antisymm h
  have hbits : fMag y = fMag x := by
    rw [← roundMag_fScaled Nat.one_pos hx, ← roundMag_fScaled Nat.one_pos hy, hunits]
  exact hgt hbits.ge

theorem fFixed_mono (h : fLe x y = true) : fFixed x ≤ fFixed y := by
  obtain ⟨-, -, hkey⟩ := fLe_iff.1 h
  rw [fKey, fKey] at hkey
  rw [fFixed, fFixed]
  cases hx : fSign x <;> cases hy : fSign y <;>
    simp only [hx, hy, if_true, if_false, Bool.false_eq_true] at hkey ⊢
  · have := fScaled_mono (x := x) (y := y) (by omega)
    omega
  · have := fScaled_of_zero (x := x) (beq_iff_eq.2 (by omega))
    have := fScaled_of_zero (x := y) (beq_iff_eq.2 (by omega))
    omega
  · omega
  · have := fScaled_mono (x := y) (y := x) (by omega)
    omega

/-- `+0.0` is at most a value without sign, and at most a zero. -/
theorem fLe_fZero_iff : fLe fZero x = true ↔ fIsNaN x = false ∧ (fSign x = true → fIsZero x = true) := by
  rw [fLe_iff, and_iff_right (show fIsNaN fZero = false by decide), show fKey fZero = 0 by decide, fKey, fIsZero,
    beq_iff_eq]
  cases fSign x <;> simp

theorem fSign_of_pos (h : fLt fZero x = true) : fSign x = false := by
  obtain ⟨-, -, hkey⟩ := fLt_iff.1 h
  rw [show fKey fZero = 0 by decide, fKey] at hkey
  cases hsign : fSign x with
  | false => rfl
  | true => rw [hsign, if_pos rfl] at hkey; omega

theorem fIsZero_of_pos (h : fLt fZero x = true) : fIsZero x = false := by
  obtain ⟨-, -, hkey⟩ := fLt_iff.1 h
  have hmag := natAbs_fKey x
  rw [show fKey fZero = 0 by decide] at hkey
  exact beq_false_of_ne (by omega)

/-! ## Rounding keeps order -/

theorem fSign_fRound (sg : Bool) (num den : Nat) : fSign (fRound sg num den) = sg :=
  fSign_fPack sg ((Nat.min_le_left _ _).trans_lt (by decide))

theorem fMag_fRound (sg : Bool) (num den : Nat) : fMag (fRound sg num den) = roundMag num den :=
  fMag_fPack sg ((Nat.min_le_left _ _).trans_lt (by decide))

theorem fRound_zero (sg : Bool) {den : Nat} (hden : 0 < den) : fRound sg 0 den = fPack sg 0 := by
  have hzero : roundMag 0 den = 0 := by
    have hself := roundMag_fScaled (x := fZero) hden (by decide)
    rwa [fScaled_of_zero (by decide), Nat.zero_mul] at hself
  rw [fRound, hzero]

theorem lt_overflow_of_finite {sg : Bool} {num den : Nat} (hden : 0 < den) (h : fIsFinite (fRound sg num den) = true) :
    num < (2 ^ 54 - 1) * 2 ^ 2044 * den := by
  by_contra hover
  rw [fRound_of_overflow sg hden (not_lt.1 hover), fPack_infMag] at h
  cases sg <;> exact absurd h (by decide)

/-- A larger quotient rounds to no smaller value: were the two values the other way round, each quotient would be nearer
to the other's. -/
theorem fScaled_fRound_mono (sg sg' : Bool) {m n den : Nat} (hden : 0 < den) (h : m ≤ n)
    (hn : n < (2 ^ 54 - 1) * 2 ^ 2044 * den) : fScaled (fRound sg m den) ≤ fScaled (fRound sg' n den) := by
  rcases h.eq_or_lt with rfl | hlt
  · exact (fScaled_congr (by rw [fMag_fRound, fMag_fRound])).le
  obtain ⟨-, -, -, hm⟩ := fRound_of_not_overflow sg hden (h.trans_lt hn)
  obtain ⟨-, -, -, hn'⟩ := fRound_of_not_overflow sg' hden hn
  obtain ⟨hnearM, -⟩ := stepsOf_nearest hden hm (fRound sg' n den)
  obtain ⟨hnearN, -⟩ := stepsOf_nearest hden hn' (fRound sg m den)
  by_contra hgt
  have hunits : fScaled (fRound sg' n den) * den < fScaled (fRound sg m den) * den :=
    Nat.mul_lt_mul_of_pos_right (not_le.1 hgt) hden
  zify at hunits
  omega

/-! ## A value of a column less the least one -/

/-- A finite difference has finite operands. -/
theorem finite_of_fSub (h : fIsFinite (fSub x y) = true) : fIsFinite x = true ∧ fIsFinite y = true := by
  have hnan (op : Nat) (a b : F64) : fIsFinite (fNaN op a b) = true → False := fun hf =>
    Bool.false_ne_true ((fIsNaN_of_finite hf).symm.trans (fIsNaN_fNaN op a b))
  have hinf {a : F64} (ha : fIsInf a = true) : fIsFinite a = true → False := fun hf =>
    Bool.false_ne_true ((fIsInf_of_finite hf).symm.trans ha)
  unfold fSub at h
  split at h
  case isTrue => exact (hnan _ _ _ h).elim
  case isFalse hno =>
    rw [Bool.or_eq_true, not_or] at hno
    have hy : fIsInf (fNeg y) = fIsInf y := by rw [fIsInf, fMag_fNeg, fIsInf]
    rw [fSum, hy] at h
    split at h
    case isTrue hx =>
      split at h
      · exact (hnan _ _ _ h).elim
      · exact (hinf hx h).elim
    case isFalse hx =>
      split at h
      case isTrue hyInf => exact (hinf (hy.trans hyInf) h).elim
      case isFalse hyInf =>
        have hxf := (finite_or_inf_or_nan x).resolve_right (not_or.2 ⟨hx, hno.1⟩)
        have hyf := (finite_or_inf_or_nan y).resolve_right (not_or.2 ⟨hyInf, hno.2⟩)
        exact ⟨hxf, hyf⟩

/-- What lies between two finite values is finite. -/
theorem finite_of_fLe_fLe (hxy : fLe x y = true) (hyz : fLe y z = true) (hx : fIsFinite x = true)
    (hz : fIsFinite z = true) : fIsFinite y = true := by
  obtain ⟨-, -, hlo⟩ := fLe_iff.1 hxy
  obtain ⟨-, -, hhi⟩ := fLe_iff.1 hyz
  have hxMag := natAbs_fKey x
  have hyMag := natAbs_fKey y
  have hzMag := natAbs_fKey z
  have hxFin : fMag x < infMag := of_decide_eq_true hx
  have hzFin : fMag z < infMag := of_decide_eq_true hz
  exact decide_eq_true (by omega)

/-- A value less a smaller one is the exact difference, rounded; its sign is that of a zero where there is one. -/
theorem fSub_of_fLe (hx : fIsFinite x = true) (hy : fIsFinite y = true) (h : fLe y x = true) :
    ∃ sg, fSub x y = fRound sg (fFixed x - fFixed y).toNat 1 ∧ (sg = true → fFixed x - fFixed y = 0) := by
  have hle := fFixed_mono h
  rw [fSub_of_finite hx hy, fSum_of_finite 1 x y hx ((fIsFinite_fNeg y).trans hy), fFixed_fNeg, ← sub_eq_add_neg]
  split
  case isTrue hzero => exact ⟨_, by rw [hzero, Int.toNat_zero, fRound_zero _ Nat.one_pos], fun _ => hzero⟩
  case isFalse =>
    have hsign : decide (fFixed x - fFixed y < 0) = false := decide_eq_false (by omega)
    have hunits : (fFixed x - fFixed y).natAbs = (fFixed x - fFixed y).toNat := by omega
    rw [hsign, hunits]
    exact ⟨false, rfl, nofun⟩

theorem fLe_fZero_fRound {sg : Bool} {num den : Nat} (hden : 0 < den) (hfinite : fIsFinite (fRound sg num den) = true)
    (hsign : sg = true → num = 0) : fLe fZero (fRound sg num den) = true := by
  refine fLe_fZero_iff.2 ⟨fIsNaN_of_finite hfinite, fun hsg => ?_⟩
  rw [fSign_fRound] at hsg
  rw [hsign hsg, fRound_zero sg hden, fIsZero_fPack_zero]

/-- Between a least value `y` and a greatest one `z` whose difference is finite, the difference `x - y` is finite, not
negative, and no larger. -/
theorem fSub_least (hyx : fLe y x = true) (hxz : fLe x z = true) (h : fIsFinite (fSub z y) = true) :
    fIsFinite (fSub x y) = true ∧ fLe fZero (fSub x y) = true ∧ fScaled (fSub x y) ≤ fScaled (fSub z y) := by
  obtain ⟨hz, hy⟩ := finite_of_fSub h
  have hx := finite_of_fLe_fLe hyx hxz hy hz
  obtain ⟨sg, hsub, hsign⟩ := fSub_of_fLe hx hy hyx
  obtain ⟨sg', hrange, -⟩ := fSub_of_fLe hz hy (fLe_trans hyx hxz)
  have hle := fFixed_mono hxz
  have hunits : (fFixed x - fFixed y).toNat ≤ (fFixed z - fFixed y).toNat := by omega
  rw [hrange] at h
  have hlt := lt_overflow_of_finite Nat.one_pos h
  rw [hsub, hrange]
  obtain ⟨hfinite, -⟩ := fRound_of_not_overflow sg Nat.one_pos (hunits.trans_lt hlt)
  exact ⟨hfinite, fLe_fZero_fRound Nat.one_pos hfinite fun hsg => by rw [hsign hsg]; rfl,
    fScaled_fRound_mono sg sg' Nat.one_pos hunits hlt⟩

/-! ## The quotient by the range -/

/-- A value that is not negative, by a positive one that is no smaller, is in `[0, 1]`. -/
theorem fDiv_in_unit_interval (hx : fIsFinite x = true) (hy : fIsFinite y = true) (hx0 : fLe fZero x = true)
    (hy0 : fLt fZero y = true) (h : fScaled x ≤ fScaled y) :
    fLe fZero (fDiv x y) = true ∧ fLe (fDiv x y) fOne = true := by
  have hzero := fIsZero_of_pos hy0
  have hpos := fScaled_pos hzero
  obtain ⟨-, hsign⟩ := fLe_fZero_iff.1 hx0
  have hle : fUnit * fScaled x ≤ 2 ^ 0 * fUnit * fScaled y := by
    rw [Nat.pow_zero, Nat.one_mul]
    exact Nat.mul_le_mul_left _ h
  rw [fDiv_of_finite hx hy hzero, fSign_of_pos hy0, Bool.bne_false]
  have hbound := atMostPow_fRound (fSign x) (by decide) hpos hle
  have hfinite := hbound.1
  have hone := fMag_le_of_fScaled_le hfinite (show fIsFinite fOne = true by decide)
    (hbound.units_le_one.trans_eq fScaled_fOne.symm)
  refine ⟨fLe_fZero_fRound hpos hfinite fun hsg => ?_, ?_⟩
  · rw [fScaled_of_zero (hsign hsg), Nat.mul_zero]
  · exact ((fMag_le_iff_between (by decide) (by decide)).1 hone).2

theorem fDiv_self_of_pos (hx : fIsFinite x = true) (hx0 : fLt fZero x = true) : fDiv x x = fOne := by
  have hzero := fIsZero_of_pos hx0
  rw [fDiv_of_finite hx hx hzero, bne_self_eq_false, ← fScaled_fOne, show false = fSign fOne by decide,
    fRound_fScaled (fScaled_pos hzero) (by decide)]

theorem fDiv_fZero_of_pos (hx : fIsFinite x = true) (hx0 : fLt fZero x = true) : fDiv fZero x = fZero := by
  have hzero := fIsZero_of_pos hx0
  rw [fDiv_of_finite (by decide) hx hzero, fSign_of_pos hx0, fScaled_of_zero (x := fZero) (by decide), Nat.mul_zero,
    fRound_zero _ (fScaled_pos hzero)]
  rfl

end Sys2Proof.Machine
end

section
/-! PROOFS. The emitted column (R229, R230): the values of a normalised column, its extremes, and the interval `[0, 1]`
kept by every step. -/

namespace Sys2Proof.Machine

variable {s t : State} {i : Instr} {v : List F64} {x range : F64}

/-! ## A normalised column (R229) -/

theorem rangeIsNormal_iff : rangeIsNormal range = true ↔ fIsFinite range = true ∧ fLt fZero range = true := by
  rw [rangeIsNormal, Bool.and_eq_true]

/-- The column emitted for the dB values `v`. -/
def normalisedColumn (v : List F64) : List F64 := normalise v (leastOf v) (fSub (greatestOf v) (leastOf v))

theorem normalise_of_normal (vmin : F64) (h : rangeIsNormal range = true) :
    normalise v vmin range = v.map fun x => fDiv (fSub x vmin) range := by
  simp only [normalise, if_pos h]

theorem normalise_of_degenerate (vmin : F64) (h : rangeIsNormal range = false) :
    normalise v vmin range = List.replicate v.length fZero := by
  simp only [normalise, h, Bool.false_eq_true, if_false, List.map_const']

theorem normalisedColumn_in_unit_interval (h : noNaN v) (hx : x ∈ normalisedColumn v) :
    fLe fZero x = true ∧ fLe x fOne = true := by
  cases hnormal : rangeIsNormal (fSub (greatestOf v) (leastOf v)) with
  | false =>
    rw [normalisedColumn, normalise_of_degenerate _ hnormal] at hx
    rw [List.eq_of_mem_replicate hx]
    decide
  | true =>
    rw [normalisedColumn, normalise_of_normal _ hnormal] at hx
    obtain ⟨y, hy, rfl⟩ := List.mem_map.1 hx
    obtain ⟨hfinite, hpos⟩ := rangeIsNormal_iff.1 hnormal
    obtain ⟨-, hleast⟩ := leastOf_spec (List.ne_nil_of_mem hy) h
    obtain ⟨-, hgreatest⟩ := greatestOf_spec (List.ne_nil_of_mem hy) h
    obtain ⟨hdFinite, hd0, hdLe⟩ := fSub_least (hleast y hy) (hgreatest y hy) hfinite
    exact fDiv_in_unit_interval hdFinite hfinite hd0 hpos hdLe

/-- Settles O45: the folds leave the extremes; the least value less itself is `+0.0`, the range by itself `1.0`. -/
theorem columnExtremes : Obligations.ColumnExtremes := by
  intro v hne hnan
  obtain ⟨hleastMem, hleast⟩ := leastOf_spec hne hnan
  obtain ⟨hgreatestMem, hgreatest⟩ := greatestOf_spec hne hnan
  refine ⟨hleastMem, hgreatestMem, fun x hx => ⟨hleast x hx, hgreatest x hx⟩, fun hnormal i => ?_,
    normalise_of_degenerate _⟩
  obtain ⟨hfinite, hpos⟩ := rangeIsNormal_iff.1 hnormal
  obtain ⟨-, hleastFinite⟩ := finite_of_fSub hfinite
  rw [normalise_of_normal _ hnormal, List.getElem?_map]
  constructor
  · intro hi
    rw [hi, Option.map_some, fSub_self_of_finite hleastFinite, fDiv_fZero_of_pos hfinite hpos]
  · intro hi
    rw [hi, Option.map_some, fDiv_self_of_pos hfinite hpos]

/-! ## The columns a step emits (R230) -/

/-- From `s` to `t` no column is emitted, or the one of the dB values that `t` holds. -/
def EmitsColumn (s t : State) : Prop := t.cols = s.cols ∨ t.cols = s.cols ++ [normalisedColumn t.spectral.v]

theorem emitsColumn_opCcol (s : State) : EmitsColumn s (opCcol s) := by
  rw [EmitsColumn, opCcol, opCloseColumn_eq, opEmit_eq, opColumn_eq]
  dsimp only
  split
  · exact .inr rfl
  · exact .inl rfl

/-- The parts of a CSTEP that are left emit at most one column: with its CCOL the CSTEP is done. -/
theorem emitsColumn_opNextParts (n : Nat) (s : State) : EmitsColumn s (opNextParts n s) := by
  induction n generalizing s with
  | zero => exact .inl rfl
  | succ n ih =>
    rw [opNextParts]
    by_cases hnone : s.cons.part = .none
    · rw [opNextPart_of_none s hnone]
      exact ih s
    · obtain ⟨p, hp, -⟩ := opNextPart_cases hnone
      rw [hp]
      by_cases hccol : p = .ccol
      · subst hccol
        show EmitsColumn s (opNextParts n (opCcol s))
        rw [opNextParts_of_none _ (opCcol_part s)]
        exact emitsColumn_opCcol s
      · have hrest := ih (p.effect s)
        rwa [EmitsColumn, cols_part hccol] at hrest

/-- A STOP emits a column at most where it finishes a CSTEP under way (R329). -/
theorem emitsColumn_execStop (h : execStop s = .next t) : EmitsColumn s t := by
  rcases stepIf_cases _ _ h with ⟨-, rfl⟩ | ⟨-, rfl⟩
  · have hparts := emitsColumn_opNextParts (partsBound (opFinishProd s).hw) (opFinishProd s)
    rw [EmitsColumn, (prodOnly_opFinishProd s).cols, ← opFinishCons_eq] at hparts
    exact hparts
  · exact .inl rfl

theorem emitsColumn_execCstep (h : execCstep s = .next t) : EmitsColumn s t := by
  rcases next_ite_cases h with rfl | ⟨-, rfl⟩ | ⟨-, rfl⟩
  · exact .inl rfl
  · exact emitsColumn_opNextParts 3 ((opRbrd s).consTo .taken)
  · exact .inl rfl

theorem emitsColumn_execCcol (h : execCcol s = .next t) : EmitsColumn s t := by
  rcases stepIf_cases _ _ h with ⟨-, rfl⟩ | ⟨-, rfl⟩
  · exact emitsColumn_opCcol s
  · exact .inl rfl

/-- START leaves the log, or empties it (R250, R251). -/
theorem cols_of_execStart (h : execStart s = .next t) : t.cols = [] ∨ t.cols = s.cols := by
  cases h
  split
  case isTrue => exact .inr (raise_cols s .busy)
  case isFalse =>
    split
    case isTrue => exact .inr (raise_cols s .configError)
    case isFalse =>
      split
      · exact .inr (raise_cols s .openFailure)
      · exact .inl rfl

theorem emitsColumn_of_exec (h : exec i s = .next t) : t.cols = [] ∨ EmitsColumn s t := by
  obtain ⟨-, -, -, -, hothers⟩ := ownershipOfState i s t h
  cases i with
  | start => exact (cols_of_execStart h).imp_right .inl
  | stop => exact .inr (emitsColumn_execStop h)
  | cstep => exact .inr (emitsColumn_execCstep h)
  | ccol => exact .inr (emitsColumn_execCcol h)
  | _ => exact .inr (.inl (hothers nofun nofun nofun (.inl nofun)))

theorem emitsColumn_of_inputTaken (h : InputTaken s t) : t.cols = [] ∨ EmitsColumn s t := by
  cases h with
  | op i hexec => exact emitsColumn_of_exec hexec
  | configured | badCommand | busy | environment => exact .inr (.inl rfl)

theorem takeInput_cols (s : State) : (takeInput s).2.cols = s.cols := by
  unfold takeInput
  split <;> rfl

/-- Settles O44: a step emits at most one column, that of the dB values it leaves. -/
theorem columnsStayInUnitIntervalWhereNoLevelIsNaN : Obligations.ColumnsStayInUnitIntervalWhereNoLevelIsNaN := by
  intro s t hstep hcols hnan
  have hemits := emitsColumn_of_inputTaken (inputTaken_of_applyInput hstep)
  rw [EmitsColumn, takeInput_cols] at hemits
  intro c hc x hx
  rcases hemits with hempty | hkept | hcolumn
  · exact absurd (hempty ▸ hc) List.not_mem_nil
  · exact hcols c (hkept ▸ hc) x hx
  · rcases List.mem_append.1 (hcolumn ▸ hc) with hold | hnew
    · exact hcols c hold x hx
    · rw [List.mem_singleton.1 hnew] at hx
      exact normalisedColumn_in_unit_interval hnan hx

end Sys2Proof.Machine
end

section
/-! PROOFS. CSTEP and CCHUNK (R222 to R226): a sample, the chunk and column operations that fall due, and a window's
spectrum lane by lane, whole or part by part (R116). -/

namespace Sys2Proof.Machine

variable {s : State}

/-! ## What falls due after a sample (R222, R223) -/

theorem dueAfterSample_eq (p : Params) (spc nchunk cnt : Nat) : dueAfterSample p spc nchunk cnt =
    if p.chunk ∣ cnt ∨ (cnt = spc ∧ nchunk = 0) then .chunk else if cnt = spc then .column else .none :=
  if_congr (or_congr_left Nat.dvd_iff_mod_eq_zero.symm) rfl rfl

/-- The sample is taken and counted, and the boundary tests find what is due (R222). -/
def opTakeSample (s : State) : State := opCountSample ((opRbrd s).consTo .taken)

theorem opTakeSample_eq (s : State) : opTakeSample s =
    { s with
      spectral := { s.spectral with idx := s.cons.rd, smp := s.ring.read s.cons.rd }
      cons := { s.cons with
        rd := (s.cons.rd + 1) % s.hw.ringLen
        cnt := s.cons.cnt + 1
        part :=
          if s.hw.chunk ∣ s.cons.cnt + 1 ∨ (s.cons.cnt + 1 = s.sup.spc ∧ s.cons.nchunk = 0) then .chunk
          else if s.cons.cnt + 1 = s.sup.spc then .column else .none } } := by
  rw [opTakeSample, opRbrd_eq, opCountSample_eq, dueAfterSample_eq]
  rfl

theorem opTakeSample_part (s : State) : (opTakeSample s).cons.part = .chunk ∨ (opTakeSample s).cons.part = .column ∨
    (opTakeSample s).cons.part = .none := by
  rw [opTakeSample_eq]
  dsimp only
  split
  · exact .inl rfl
  · split
    · exact .inr (.inl rfl)
    · exact .inr (.inr rfl)

/-- CSTEP takes a sample, and then the two parts that may be due. -/
theorem exec_cstep (hat : consAt s .none) (hleft : (s.cons.rd : Int) ≠ s.cons.lim) :
    exec .cstep s = .next (opNextParts 2 (opTakeSample s)) :=
  congrArg Host.Outcome.next (if_pos ⟨hat, hleft⟩)

/-- RBRD and then CSTEP's own word take a sample (R116). -/
theorem runOps_takeSample (hat : consAt s .none) (hleft : (s.cons.rd : Int) ≠ s.cons.lim) :
    runOps [.rbrd, .cstep] s = .next (opTakeSample s) := by
  have hrbrd : exec .rbrd s = .next ((opRbrd s).consTo .taken) := stepIf_of s _ _ ⟨hat, hleft⟩
  have htests : exec .cstep ((opRbrd s).consTo .taken) = .next (opTakeSample s) :=
    exec_of_due (p := .count) ⟨hat.1, rfl⟩
  exact (runOps_cons hrbrd).trans (runOps_single htests)

theorem exec_ccol (hat : consAt s .column) (hbin : s.spectral.bin = 0) (hdivided : s.spectral.divided = false) :
    exec .ccol s = .next (opCcol s) :=
  exec_of_due (p := .ccol) ⟨hat, hdivided, .inl hbin⟩

/-- The column operation ends the CSTEP. -/
theorem opNextParts_column (n : Nat) (hpart : s.cons.part = .column) (hbin : s.spectral.bin = 0)
    (hdivided : s.spectral.divided = false) : opNextParts (n + 1) s = opCcol s := by
  have hnext : opNextPart s = opCcol s := by
    rw [opNextPart, hpart]
    simp only [opColumnPart, hdivided, Bool.false_eq_true, if_false, if_pos (Or.inl hbin)]
  rw [opNextParts, hnext, opNextParts_of_none _ (opCcol_part s)]

theorem opNextParts_chunk (n : Nat) (hpart : s.cons.part = .chunk) :
    opNextParts (n + 1) s = opNextParts n (opChunkDone (opCchunk s)) := by
  rw [opNextParts, opNextPart, hpart]

/-- After the chunk operation the column operation is due where the counter is `spc` (R223 c). -/
theorem opChunkDone_part (s : State) :
    (opChunkDone s).cons.part = if s.cons.cnt = s.sup.spc then .column else .none := rfl

/-- What a chunk operation leaves of CONS's registers: the chunk is counted. -/
theorem opCchunk_cons (s : State) : (opCchunk s).cons = { s.cons with nchunk := s.cons.nchunk + 1 } := by
  rw [opCchunk_eq]

/-- The chunk operation leaves the loop of the column, and SUP's registers. -/
theorem opCchunk_kept (s : State) :
    (opCchunk s).spectral.bin = s.spectral.bin ∧ (opCchunk s).spectral.divided = s.spectral.divided ∧
    (opCchunk s).sup = s.sup := by
  rw [opCchunk_eq]
  exact ⟨rfl, rfl, rfl⟩

/-- The chunk operation and its CSTEP's next part, where CONS may work. -/
theorem opChunkDone_due (hworks : consWorks s) :
    (s.cons.cnt ≠ s.sup.spc → (opChunkDone (opCchunk s)).cons.part = .none) ∧
    (s.cons.cnt = s.sup.spc → consAt (opChunkDone (opCchunk s)) .column) := by
  obtain ⟨-, -, hsup⟩ := opCchunk_kept s
  have hpart := opChunkDone_part (opCchunk s)
  rw [opCchunk_cons, hsup] at hpart
  refine ⟨fun hne => hpart.trans (if_neg hne), fun heq => ⟨?_, hpart.trans (if_pos heq)⟩⟩
  rw [opChunkDone_eq, opCchunk_eq]
  exact hworks

/-- The two parts that may follow the boundary tests (R222): none, a column operation, or a chunk operation with or
without one. -/
theorem opNextParts_two (hbin : s.spectral.bin = 0) (hdivided : s.spectral.divided = false) (hworks : consWorks s) :
    (s.cons.part = .none → opNextParts 2 s = s) ∧
    (s.cons.part = .column → opNextParts 2 s = opCcol s) ∧
    (s.cons.part = .chunk →
      (s.cons.cnt ≠ s.sup.spc → opNextParts 2 s = opChunkDone (opCchunk s)) ∧
      (s.cons.cnt = s.sup.spc → opNextParts 2 s = opCcol (opChunkDone (opCchunk s)))) := by
  obtain ⟨hkeptBin, hkeptDivided, -⟩ := opCchunk_kept s
  obtain ⟨hdone, hcolumn⟩ := opChunkDone_due hworks
  refine ⟨fun hpart => opNextParts_of_none s hpart 2, fun hpart => opNextParts_column 1 hpart hbin hdivided,
    fun hpart => ⟨fun hne => ?_, fun heq => ?_⟩⟩
  · rw [opNextParts_chunk 1 hpart, opNextParts_of_none _ (hdone hne)]
  · rw [opNextParts_chunk 1 hpart,
      opNextParts_column 0 (hcolumn heq).2 (hkeptBin.trans hbin) (hkeptDivided.trans hdivided)]

/-- The last part that is due ends the CSTEP. -/
theorem opNextParts_two_part (hbin : s.spectral.bin = 0) (hdivided : s.spectral.divided = false) (hworks : consWorks s)
    (hpart : s.cons.part = .chunk ∨ s.cons.part = .column ∨ s.cons.part = .none) :
    (opNextParts 2 s).cons.part = .none := by
  obtain ⟨hnone, hcolumn, hchunk⟩ := opNextParts_two hbin hdivided hworks
  obtain ⟨hdone, -⟩ := opChunkDone_due hworks
  rcases hpart with hpart | hpart | hpart
  · by_cases heq : s.cons.cnt = s.sup.spc
    · rw [(hchunk hpart).2 heq, opCcol_part]
    · rw [(hchunk hpart).1 heq, hdone heq]
  · rw [hcolumn hpart, opCcol_part]
  · rw [hnone hpart, hpart]

/-- Settles O41: after the sample and its tests at most two parts are due, and the last of them ends the CSTEP. -/
theorem cstepResult : Obligations.CstepResult := by
  refine ⟨rfl, fun s hat hleft hbin hdivided => ?_⟩
  have hworks : consWorks (opTakeSample s) := hat.1
  have hbin' : (opTakeSample s).spectral.bin = 0 := hbin
  have hdivided' : (opTakeSample s).spectral.divided = false := hdivided
  obtain ⟨hnone, hcolumn, hchunk⟩ := opNextParts_two hbin' hdivided' hworks
  obtain ⟨hdone, hcolumnDue⟩ := opChunkDone_due hworks
  obtain ⟨hkeptBin, hkeptDivided, -⟩ := opCchunk_kept (opTakeSample s)
  rw [exec_cstep hat hleft]
  refine ⟨⟨_, rfl, opNextParts_two_part hbin' hdivided' hworks (opTakeSample_part s)⟩, opTakeSample s,
    opTakeSample_eq s, runOps_takeSample hat hleft, fun hpart => ?none, fun hpart => ?column,
    fun hpart => ⟨_, exec_of_due (p := .cchunk) ⟨hworks, hpart⟩, fun hne => ⟨hdone hne, ?chunk⟩,
      fun heq => ⟨(hcolumnDue heq).2, ?chunkColumn⟩⟩⟩
  case none => rw [hnone hpart]
  case column => rw [hcolumn hpart, exec_ccol ⟨hworks, hpart⟩ hbin' hdivided']
  case chunk => exact congrArg Host.Outcome.next ((hchunk hpart).1 hne)
  case chunkColumn =>
    rw [(hchunk hpart).2 heq]
    exact (exec_ccol (hcolumnDue heq) (hkeptBin.trans hbin') (hkeptDivided.trans hdivided')).symm

/-! ## The chunk operation, lane by lane (R224 to R226) -/

/-- WINDOW, sample by sample (R224). -/
theorem getElem?_windowBuf (p : Params) {win : List F64} {i : Nat} {x : F64} (hi : i < p.chunk)
    (hx : win[i]? = some x) : (windowBuf p win)[i]? = some { re := fMul x (ham p i), im := fZero } := by
  rw [windowBuf, List.getElem?_map, List.getElem?_range hi, Option.map_some, List.getD_eq_getElem?_getD, hx,
    Option.getD_some]

/-- ACC, bin by bin (R226). -/
theorem getElem?_accBuf (p : Params) {acc buf : List Cplx} {b : Nat} {x y : Cplx} (hb : b < p.chunk)
    (hx : acc[b]? = some x) (hy : buf[b]? = some y) : (accBuf p acc buf)[b]? = some (accLane p.accMode x y) := by
  rw [accBuf, List.getElem?_map, List.getElem?_range hb, Option.map_some, cAt_of_getElem? hx, cAt_of_getElem? hy]

theorem exec_window (hat : consAt s .gathered) : exec .window s = .next { s with
    spectral := { s.spectral with buf := windowBuf s.hw s.spectral.win }
    fft := { s.fft with phase := .idle }
    cons := { s.cons with part := .windowed } } :=
  exec_of_due (p := .window) hat

theorem exec_acc (hat : consAt s .transformed) : exec .acc s = .next { s with
    spectral := { s.spectral with acc := accBuf s.hw s.spectral.acc s.spectral.buf }
    cons := { s.cons with part := .accumulated } } :=
  exec_of_due (p := .acc) hat

/-- The parts of a CCHUNK, taken one by one, and its own word leave what it leaves taken whole (R116, R225). -/
theorem runOps_chunkParts (hat : consAt s .chunk) :
    runOps [.rbwin, .window, .fft, .acc, .cchunk] s = .next (opChunkDone (opCchunk s)) := by
  have hworks := hat.1
  have hend {t : State} (hat : consAt t .accumulated) : exec .cchunk t = .next (opChunkDone (opCountChunk t)) :=
    exec_of_due (p := .cchunkEnd) hat
  refine (runOps_cons (exec_rbwin hat)).trans <| (runOps_cons (exec_window ?window)).trans <|
    (runOps_cons (exec_fft_idle ?fft)).trans <| (runOps_cons (exec_acc ?acc)).trans <|
    (runOps_single (hend ?chunkEnd)).trans ?_
  case window | acc | chunkEnd => exact ⟨hworks, rfl⟩
  case fft => exact ⟨⟨hworks, rfl⟩, rfl⟩
  rw [opCchunk_eq]
  rfl

/-- Settles O42: WINDOW and ACC are maps over the lanes; the parts of a CCHUNK leave what it leaves whole. -/
theorem chunkOperations : Obligations.ChunkOperations := by
  refine ⟨rfl, rfl, rfl,
    fun s hat _ => ⟨_, exec_window hat, length_windowBuf _ _, fun i x => getElem?_windowBuf s.hw⟩,
    fun s hat hlen _ => ⟨_, exec_acc hat, length_accBuf _ _ _, fun b x y hx hy => ?acc⟩,
    fun s hat => ⟨_, exec_of_due (p := .cchunk) hat, runOps_chunkParts hat, ?cchunk⟩⟩
  case acc =>
    obtain ⟨hb, -⟩ := List.getElem?_eq_some_iff.1 hx
    have hlane := getElem?_accBuf s.hw (hlen ▸ hb) hx hy
    constructor
    · intro hmode
      rw [hlane, hmode, accLane]
    · intro hmode
      rw [hlane, hmode, accLane, cAbs]
  case cchunk =>
    show (opChunkDone (opCchunk s)).cons = _
    rw [opChunkDone_eq, opCchunk_eq]

end Sys2Proof.Machine
end

section
/-! PROOFS. CCOL (R227 to R230): the whole next state, whole or part by part (R116); a silent column (R229, R274). -/

namespace Sys2Proof.Machine

variable {p : Params} {nchunk : Nat} {s t : State} {x : Spectral}

/-! ## What CCOL writes -/

theorem columnMagnitudes_eq_map {acc : List Cplx} (h : acc.length = p.chunk) : columnMagnitudes p nchunk acc =
    acc.map fun c => meanMagnitude p.accMode (cDivs c (fOfNat nchunk)) := by
  apply List.ext_getElem?
  intro b
  rw [columnMagnitudes, List.getElem?_map, List.getElem?_map]
  rcases Nat.lt_or_ge b p.chunk with hlt | hge
  · rw [List.getElem?_range hlt, getElem?_eq_cAt (h ▸ hlt), Option.map_some, Option.map_some]
  · rw [List.getElem?_eq_none (by rwa [List.length_range]), List.getElem?_eq_none (by rwa [h])]
    rfl

theorem length_columnMagnitudes (acc : List Cplx) : (columnMagnitudes p nchunk acc).length = p.chunk := by
  rw [columnMagnitudes, List.length_map, List.length_range]

theorem magnitudesDue_whole (hbin : x.bin = 0) : magnitudesDue p nchunk x = columnMagnitudes p nchunk x.acc :=
  if_neg (by rw [hbin]; exact (chunk_pos p).ne)

/-- The scratch of a column none of whose magnitudes is taken singly (R228, R229). -/
theorem columnScratch_whole (hbin : x.bin = 0) (hdivided : x.divided = false) : columnScratch p nchunk x =
    { x with
        v := columnLevels p nchunk x.acc
        vmin := leastOf (columnLevels p nchunk x.acc)
        vmax := greatestOf (columnLevels p nchunk x.acc)
        range := fSub (greatestOf (columnLevels p nchunk x.acc)) (leastOf (columnLevels p nchunk x.acc))
        out := normalisedColumn (columnLevels p nchunk x.acc) } := by
  rw [columnScratch, magnitudesDue_whole hbin, ← columnLevels]
  cases x
  dsimp only at hbin hdivided
  subst hbin hdivided
  rfl

/-- CCOL emits its column unless PIXCOLS is reached, and exits where PIXCOLS is reached with or before it (R230). -/
theorem opCcol_eq (s : State) : opCcol s =
    { s with
        spectral := { columnScratch s.hw s.cons.nchunk s.spectral with acc := List.replicate s.hw.chunk cZero }
        flags := if rangeIsNormal (columnScratch s.hw s.cons.nchunk s.spectral).range then s.flags
          else { s.flags with flat := true }
        cols := if s.cons.ncol < s.cfg.pixcols.toNat
          then s.cols ++ [(columnScratch s.hw s.cons.nchunk s.spectral).out] else s.cols
        lines := if s.cons.ncol < s.cfg.pixcols.toNat
          then { s.lines with evColumn := s.lines.evColumn + 1 } else s.lines
        cons := { s.cons with
          cnt := 0, nchunk := 0, part := .none
          ncol := if s.cons.ncol < s.cfg.pixcols.toNat then s.cons.ncol + 1 else s.cons.ncol
          cexit := if s.cons.ncol + 1 = s.cfg.pixcols.toNat ∨ s.cons.ncol = s.cfg.pixcols.toNat
            then .complete else s.cons.cexit
          cstate := if s.cons.ncol + 1 = s.cfg.pixcols.toNat ∨ s.cons.ncol = s.cfg.pixcols.toNat
            then .exit else s.cons.cstate } } := by
  rw [opCcol, opColumn_eq, opEmit_eq]
  generalize columnScratch s.hw s.cons.nchunk s.spectral = x
  dsimp only
  by_cases hlt : s.cons.ncol < s.cfg.pixcols.toNat
  · simp only [if_pos hlt, opCloseColumn_eq]
    by_cases hlast : s.cons.ncol + 1 = s.cfg.pixcols.toNat
    · simp only [if_pos hlast, if_pos (Or.inl hlast)]
    · simp only [if_neg hlast, if_neg (not_or.2 ⟨hlast, hlt.ne⟩)]
  · have hnot : ¬s.cons.ncol + 1 = s.cfg.pixcols.toNat := fun heq => hlt (heq ▸ Nat.lt_succ_self _)
    simp only [if_neg hlt, opCloseColumn_eq]
    by_cases hall : s.cons.ncol = s.cfg.pixcols.toNat
    · simp only [if_pos hall, if_pos (Or.inr hall)]
    · simp only [if_neg hall, if_neg (not_or.2 ⟨hnot, hall⟩)]

/-! ## CCOL part by part (R116) -/

/-- Of the column of `s` the bins below `n` are done; the magnitudes taken stand in `v`. -/
def State.inColumn (s : State) (n : Nat) (v : List F64) (c : ComplexUnit) : State :=
  { s with
    spectral := { s.spectral with v := v, bin := n, divided := false }
    cu := c }

/-- Of the column of `s` all bins are done. -/
def State.allBins (s : State) (c : ComplexUnit) : State :=
  s.inColumn s.hw.chunk (columnMagnitudes s.hw s.cons.nchunk s.spectral.acc) c

/-- The first `n` magnitudes of the column of `s` are taken. -/
def AfterBins (s : State) (n : Nat) (t : State) : Prop :=
  ∃ v c, t = s.inColumn n v c ∧ v.length = s.hw.chunk ∧
    ∀ b < n, v[b]? = (columnMagnitudes s.hw s.cons.nchunk s.spectral.acc)[b]?

theorem inColumn_start (hbin : s.spectral.bin = 0) (hdivided : s.spectral.divided = false) :
    s.inColumn 0 s.spectral.v s.cu = s := by
  have hspectral : { s.spectral with bin := 0, divided := false } = s.spectral := by rw [← hbin, ← hdivided]
  rw [State.inColumn, hspectral]

/-- A part that is due and moves something is taken. -/
theorem takesTo_moving {q : CstepPart} {α : Type} (f : State → α) (hdue : q.due s) (hmoves : f (q.effect s) ≠ f s) :
    TakesTo [q.instr] s (q.effect s) := by
  have hexec := exec_of_due hdue
  exact ⟨runOps_single hexec, _, hexec, fun heq => hmoves (congrArg f heq), trivial⟩

/-- The CDIVS and the CABS of one bin. -/
theorem takesTo_bin (hat : consAt s .column) {n : Nat} (hn : n < s.hw.chunk) (h : AfterBins s n t) :
    ∃ u, TakesTo [.cdivs, .cabs] t u ∧ AfterBins s (n + 1) u := by
  obtain ⟨v, c, rfl, hlen, hdone⟩ := h
  have hdivide : TakesTo [.cdivs] (s.inColumn n v c) (opColumnDivide (s.inColumn n v c)) :=
    takesTo_moving (q := .divide) (·.spectral.divided) ⟨hat, hn, rfl⟩ nofun
  have hmagnitude : TakesTo [.cabs] (opColumnDivide (s.inColumn n v c))
      (opColumnMagnitude (opColumnDivide (s.inColumn n v c))) :=
    takesTo_moving (q := .magnitude) (·.spectral.divided) ⟨hat, hn, rfl⟩ nofun
  refine ⟨_, hdivide.append hmagnitude,
    v.set n (meanMagnitude s.hw.accMode (cDivs (cAt s.spectral.acc n) (fOfNat s.cons.nchunk))),
    (opColumnMagnitude (opColumnDivide (s.inColumn n v c))).cu, ?state, (List.length_set ..).trans hlen,
    fun b hb => ?magnitudes⟩
  case state =>
    rw [opColumnMagnitude_eq, opColumnDivide_eq]
    rfl
  case magnitudes =>
    rcases (Nat.lt_succ_iff.1 hb).lt_or_eq with hlt | rfl
    · rw [List.getElem?_set_ne hlt.ne', hdone b hlt]
    · rw [List.getElem?_set_self (hlen.symm ▸ hn), columnMagnitudes, List.getElem?_map, List.getElem?_range hn,
        Option.map_some]

/-- All bins of a column, one by one: `v` holds its magnitudes. -/
theorem takesTo_bins (hat : consAt s .column) (hbin : s.spectral.bin = 0) (hdivided : s.spectral.divided = false)
    (hlen : s.spectral.v.length = s.hw.chunk) :
    ∃ c, TakesTo (timesOps s.hw.chunk [.cdivs, .cabs]) s (s.allBins c) := by
  obtain ⟨_, hruns, v, c, rfl, hvLen, hdone⟩ := takesTo_timesOps (s := s) (P := AfterBins s)
    (fun n hn t => takesTo_bin hat hn) ⟨_, s.cu, (inColumn_start hbin hdivided).symm, hlen, nofun⟩
  have hv : v = columnMagnitudes s.hw s.cons.nchunk s.spectral.acc := by
    apply List.ext_getElem?
    intro b
    rcases Nat.lt_or_ge b s.hw.chunk with hlt | hge
    · exact hdone b hlt
    · rw [List.getElem?_eq_none (hvLen.trans_le hge),
        List.getElem?_eq_none ((length_columnMagnitudes _).trans_le hge)]
  rw [hv] at hruns
  exact ⟨c, hruns⟩

/-- From its magnitudes taken singly CCOL goes on as it does from those it computes itself. -/
theorem opCcol_allBins (hbin : s.spectral.bin = 0) (c : ComplexUnit) :
    opCcol (s.allBins c) = (opCcol s).withTemps s.fft c := by
  have hscratch : columnScratch s.hw s.cons.nchunk (s.allBins c).spectral =
      columnScratch s.hw s.cons.nchunk s.spectral := by
    rw [columnScratch, columnScratch, magnitudesDue_whole hbin, magnitudesDue, State.allBins, State.inColumn,
      if_pos rfl]
  have hcons : (s.allBins c).cons = s.cons := rfl
  have hhw : (s.allBins c).hw = s.hw := rfl
  rw [opCcol_eq, opCcol_eq, hcons, hhw, hscratch]
  rfl

theorem ccol_sameButTemps (hat : consAt s .column) (hbin : s.spectral.bin = 0) (hdivided : s.spectral.divided = false)
    (hlen : s.spectral.v.length = s.hw.chunk) :
    sameButTemps (timesOps s.hw.chunk [.cdivs, .cabs] ++ [.ccol]) [.ccol] s := by
  obtain ⟨c, hbins⟩ := takesTo_bins hat hbin hdivided hlen
  have hdone : (opCcol (s.allBins c)).cons.part ≠ s.cons.part := by
    rw [opCcol_part, hat.2]
    nofun
  have hend := takesTo_moving (s := s.allBins c) (q := .ccol) (·.cons.part) ⟨hat, rfl, .inr rfl⟩ hdone
  rw [CstepPart.effect, opCcol_allBins hbin] at hend
  exact sameButTemps_of (runOps_single (exec_ccol hat hbin hdivided)) (hbins.append hend).1 (by rw [opCcol_eq])

/-- Settles O43: the equation of CCOL, and its bins taken one by one. -/
theorem ccolResult : Obligations.CcolResult := by
  refine ⟨rfl, fun s hat hbin hdivided => ⟨fun hlen => ?_, ccol_sameButTemps hat hbin hdivided⟩⟩
  refine ⟨meanMagnitude s.hw.accMode, columnLevels s.hw s.cons.nchunk s.spectral.acc,
    normalisedColumn (columnLevels s.hw s.cons.nchunk s.spectral.acc), _, _, _, fun hmode m => ?_, fun hmode m => ?_,
    ?levels, rfl, rfl, rfl, ?column, ?state⟩
  · rw [hmode, meanMagnitude, cAbs]
  · rw [hmode, meanMagnitude]
  case levels =>
    rw [columnLevels, columnMagnitudes_eq_map hlen, List.map_map]
    rfl
  case column =>
    simp only [normalisedColumn, normalise, rangeIsNormal_iff]
  case state =>
    rw [exec_ccol hat hbin hdivided, opCcol_eq, columnScratch_whole hbin hdivided, hat.1.1]
    simp only [rangeIsNormal_iff]

/-! ## Silence (R229, R274, R326) -/

theorem fOfNat_eq (n : Nat) : fOfNat n = fRound false (fUnit * n) 1 := by
  unfold fOfNat fOfInt
  rw [Int.natAbs_natCast, decide_eq_false (by omega)]

/-- A number from 1 on converts to no less than `1.0`. -/
theorem fUnit_le_fScaled_fOfNat {n : Nat} (hn : 1 ≤ n) (hfinite : fIsFinite (fOfNat n) = true) :
    fUnit ≤ fScaled (fOfNat n) := by
  have hone : fRound false fUnit 1 = fOne := by
    have hself := fRound_fScaled (x := fOne) Nat.one_pos (by decide)
    rwa [fScaled_fOne, Nat.mul_one] at hself
  rw [fOfNat_eq] at hfinite ⊢
  have hle := fScaled_fRound_mono false false Nat.one_pos (Nat.le_mul_of_pos_right fUnit hn)
    (lt_overflow_of_finite Nat.one_pos hfinite)
  rwa [hone, fScaled_fOne] at hle

/-- `+0.0` by a number from 1 on is `+0.0`, also where the number is beyond the finite values. -/
theorem fDiv_fZero_fOfNat {n : Nat} (hn : 1 ≤ n) : fDiv fZero (fOfNat n) = fZero := by
  have hsign : fSign (fOfNat n) = false := by rw [fOfNat_eq, fSign_fRound]
  cases hfinite : fIsFinite (fOfNat n) with
  | true =>
    have hunits := fUnit_le_fScaled_fOfNat hn hfinite
    have hpos := fUnit_pos
    have hzero : fIsZero (fOfNat n) = false :=
      Bool.eq_false_iff.2 fun hz => by rw [fScaled_of_zero hz] at hunits; omega
    rw [fDiv_of_finite (by decide) hfinite hzero, hsign, fScaled_of_zero (x := fZero) (by decide), Nat.mul_zero,
      fRound_zero _ (hpos.trans_le hunits)]
    rfl
  | false =>
    have hinf : fIsInf (fOfNat n) = true := by
      rw [fIsFinite, fOfNat_eq, fMag_fRound, decide_eq_false_iff_not] at hfinite
      rw [fIsInf, fOfNat_eq, fMag_fRound, beq_iff_eq]
      exact (Nat.min_le_left _ _).antisymm (not_lt.1 hfinite)
    rw [fDiv_inf (by decide) hinf, hsign]
    rfl

theorem meanMagnitude_silence (mode : AccMode) {n : Nat} (hn : 1 ≤ n) :
    meanMagnitude mode (cDivs cZero (fOfNat n)) = fZero := by
  have hmean : cDivs cZero (fOfNat n) = cZero := by
    rw [cDivs, show cZero.re = fZero from rfl, show cZero.im = fZero from rfl, fDiv_fZero_fOfNat hn, cZero]
  rw [hmean]
  cases mode with
  | complex => exact numHypot_of_zeros (by decide) (by decide)
  | magnitude => rfl

/-- The dB value of a magnitude zero is `-inf` (U5, R228). -/
theorem levelOf_fZero (p : Params) : levelOf p fZero = fNegInf := by
  rw [levelOf, fDiv_fZero_fOfNat (chunk_pos p), numLog_zero]
  unfold fMul
  decide

theorem columnLevels_silence (p : Params) (hn : 1 ≤ nchunk) :
    columnLevels p nchunk (List.replicate p.chunk cZero) = List.replicate p.chunk fNegInf := by
  rw [columnLevels, columnMagnitudes_eq_map List.length_replicate, List.map_replicate, List.map_replicate,
    meanMagnitude_silence _ hn, levelOf_fZero]

theorem extremes_replicate {n : Nat} {x : F64} (hn : 0 < n) (hx : fIsNaN x = false) :
    leastOf (List.replicate n x) = x ∧ greatestOf (List.replicate n x) = x := by
  have hne : List.replicate n x ≠ [] := mt (List.replicate_eq_nil_iff x).1 hn.ne'
  have hnan : noNaN (List.replicate n x) := fun y hy => List.eq_of_mem_replicate hy ▸ hx
  exact ⟨List.eq_of_mem_replicate (leastOf_spec hne hnan).1, List.eq_of_mem_replicate (greatestOf_spec hne hnan).1⟩

theorem not_rangeIsNormal_of_nan {range : F64} (h : fIsNaN range = true) : rangeIsNormal range = false :=
  Bool.eq_false_iff.2 fun hnormal =>
    Bool.false_ne_true ((fIsNaN_of_finite (rangeIsNormal_iff.1 hnormal).1).symm.trans h)

/-- Settles O46: every dB value is `-inf`, so the range is a NaN and the column the fallback. -/
theorem silentColumnIsFlat : Obligations.SilentColumnIsFlat := by
  intro s hat hbin hdivided hmore hchunks hacc
  have hrange : fIsNaN (fSub fNegInf fNegInf) = true := fIsNaN_fSub_self_of_inf (by decide)
  have hflat := not_rangeIsNormal_of_nan hrange
  obtain ⟨hleast, hgreatest⟩ := extremes_replicate (x := fNegInf) (chunk_pos s.hw) (by decide)
  have hlt : s.cons.ncol < s.cfg.pixcols.toNat := by omega
  have hgoesOn : ¬(s.cons.ncol + 1 = s.cfg.pixcols.toNat ∨ s.cons.ncol = s.cfg.pixcols.toNat) := by omega
  refine ⟨_, exec_ccol hat hbin hdivided, ?_⟩
  rw [opCcol_eq, columnScratch_whole hbin hdivided, hacc, columnLevels_silence s.hw hchunks, normalisedColumn, hleast,
    hgreatest, normalise_of_degenerate _ hflat, List.length_replicate]
  exact ⟨if_pos hlt, rfl, hrange, if_neg (Bool.eq_false_iff.1 hflat), (if_neg hgoesOn).trans hat.1.1,
    (congrArg EventLines.evFail (if_pos hlt)).trans rfl⟩

end Sys2Proof.Machine
end

section
/-! PROOFS. SUP's operations but STOP (R250, R251, R254, R255): START's tests and its new context, EXPIRE and JOIN. -/

namespace Sys2Proof.Machine

variable {s : State} {pixcols layout : BitVec 32}

/-! ## START's tests (R250) -/

theorem bpsLegal_iff : bpsLegal layout = true ↔ (layoutBps layout).toNat ∈ [1, 2, 3, 4] := by
  simp only [bpsLegal, Bool.and_eq_true, decide_eq_true_eq, List.mem_cons, List.not_mem_nil, or_false]
  omega

/-- A configuration is legal where none of R250's cases holds (R32, R35). -/
theorem configLegal_iff : configLegal pixcols layout = true ↔
    pixcols ≠ 0#32 ∧ (layoutBps layout).toNat ∈ [1, 2, 3, 4] ∧ layoutNch layout ≠ 0#8 ∧
    (layoutBps layout).toNat * (layoutNch layout).toNat ≤ (layoutBpf layout).toNat := by
  rw [configLegal, Bool.and_eq_true, Bool.and_eq_true, Bool.and_eq_true, bpsLegal_iff, pixcolsLegal, nchLegal, bpfLegal,
    decide_eq_true_eq, decide_eq_true_eq, decide_eq_true_eq, and_assoc, and_assoc, BitVec.toNat_ne, BitVec.toNat_ne]
  rfl

theorem exec_start_busy (h : s.sup.sstate ≠ .idle) : exec .start s = .next (raise .busy s) :=
  congrArg Host.Outcome.next (if_pos h)

theorem exec_start_illegal (hidle : s.sup.sstate = .idle) (h : configLegal s.regs.pixcols s.regs.layout = false) :
    exec .start s = .next (raise .configError s) :=
  congrArg Host.Outcome.next ((if_neg (not_not.2 hidle)).trans (if_pos h))

theorem exec_start_closed (hidle : s.sup.sstate = .idle) (hlegal : configLegal s.regs.pixcols s.regs.layout = true)
    (h : s.src.isOpen = false) : exec .start s = .next (raise .openFailure s) :=
  congrArg Host.Outcome.next
    ((if_neg (not_not.2 hidle)).trans ((if_neg (ne_false_of_eq_true hlegal)).trans (if_pos h)))

theorem exec_start_accepted (hidle : s.sup.sstate = .idle) (hlegal : configLegal s.regs.pixcols s.regs.layout = true)
    (h : s.src.isOpen = true) : exec .start s = .next (opStartAccepted s) :=
  congrArg Host.Outcome.next
    ((if_neg (not_not.2 hidle)).trans ((if_neg (ne_false_of_eq_true hlegal)).trans
      (if_neg (ne_false_of_eq_true h))))

/-- Settles O47: each refusal is the entry of its event, and R250's illegal cases are the configurations not legal. -/
theorem startRefusals : Obligations.StartRefusals := by
  refine fun s => ⟨fun hbusy => ?busy, fun hidle => ⟨fun hcases => ?illegal, fun hpixcols hbps hnch hbpf => ?_⟩⟩
  case busy => rw [exec_start_busy hbusy, raise_busy]
  case illegal =>
    have hillegal : configLegal s.regs.pixcols s.regs.layout = false := by
      rw [← Bool.not_eq_true, configLegal_iff]
      rintro ⟨hpixcols, hbps, hnch, hbpf⟩
      rcases hcases with hzero | hwidth | hzero | hshort
      · exact hpixcols hzero
      · exact hwidth hbps
      · exact hnch hzero
      · exact hshort.not_ge hbpf
    rw [exec_start_illegal hidle hillegal, raise_configError]
  have hlegal := configLegal_iff.2 ⟨hpixcols, hbps, hnch, hbpf⟩
  refine ⟨fun hclosed => ?_, fun hopen => ⟨_, exec_start_accepted hidle hlegal hopen, rfl⟩⟩
  rw [exec_start_closed hidle hlegal hclosed, raise_openFailure]

/-! ## START accepted (R251) -/

/-- `samplesPerColumn` columns of samples hold the total, and no fewer do: it is the exact ceiling (R251). -/
theorem samplesPerColumn_le_iff {total n : Nat} {p : Nat} (hp : 1 ≤ p) :
    samplesPerColumn total p ≤ n ↔ total ≤ n * p := by
  rw [samplesPerColumn, ← Nat.lt_succ_iff, Nat.div_lt_iff_lt_mul hp, Nat.succ_mul]
  omega

/-- Settles O48: the next state is R251's by definition, and the rest is the ceiling. -/
theorem startBuildsContext : Obligations.StartBuildsContext := by
  refine ⟨fun s hidle hlegal hopen => ?_, rfl, rfl, fun p hp => ?_⟩
  · have hpixcols : 1 ≤ s.regs.pixcols.toNat := by
      have hne := (configLegal_iff.1 hlegal).1
      exact Nat.pos_of_ne_zero fun hzero => hne (BitVec.eq_of_toNat_eq hzero)
    exact ⟨samplesPerColumn s.regs.total.toNat s.regs.pixcols.toNat, [], exec_start_accepted hidle hlegal hopen,
      fun _ => rfl, (samplesPerColumn_le_iff hpixcols).1 le_rfl, fun _ => (samplesPerColumn_le_iff hpixcols).2⟩
  · exact Nat.le_zero.1 ((samplesPerColumn_le_iff hp).2 (Nat.zero_le _))

/-! ## EXPIRE and JOIN (R254, R255) -/

theorem exec_expire (hstopping : s.sup.sstate = .stopping) (hlive : someAgentLive s) :
    exec .expire s = .next ((raise .expiry s).setSup { s.sup with
      pabort := if s.prod.pstate = .exit then s.sup.pabort else true
      cabort := if s.cons.cstate = .exit then s.sup.cabort else true
      sstate := .aborting }) :=
  stepIf_of s _ _ ⟨hstopping, hlive⟩

theorem exec_join (hsup : s.sup.sstate = .stopping ∨ s.sup.sstate = .aborting) (hprod : s.prod.pstate = .exit)
    (hcons : s.cons.cstate = .exit) :
    exec .join s = .next { s with
      sup := { s.sup with timerArmed := false, sstate := .idle }
      prod := { s.prod with pstate := .idle }
      cons := { s.cons with cstate := .idle } } :=
  stepIf_of s _ _ ⟨hsup, hprod, hcons⟩

/-- Settles O50: EXPIRE is the entry of its event with SUP's latches, and JOIN moves the three state registers. -/
theorem expireAndJoinResult : Obligations.ExpireAndJoinResult := by
  refine ⟨rfl, rfl, fun s hstopping hlive => ?_, fun s hsup hprod hcons => exec_join hsup hprod hcons⟩
  rw [exec_expire hstopping hlive, raise_expiry]
  rfl

end Sys2Proof.Machine
end

section
/-! PROOFS. The stop path (R252, R253, R255, R258): once `running` is clear every operation but START keeps the columns,
and the agents' exits and JOIN lead to idle from wherever the run stands. -/

namespace Sys2Proof.Machine

variable {s t : State} {i : Instr} {is js : List Instr} {c : List (List F64)}

/-! ## Lists of operations -/

/-- No operation stops the machine. -/
theorem exists_exec (i : Instr) (s : State) : ∃ t, exec i s = .next t := by
  obtain ⟨a, -, hnext⟩ := flagBlind_exec i
  exact ⟨a s, hnext s⟩

theorem runOps_append (h : runOps is s = .next t) : runOps (is ++ js) s = runOps js t := by
  induction is generalizing s with
  | nil => cases h; rfl
  | cons i is ih =>
    obtain ⟨u, hexec⟩ := exists_exec i s
    rw [runOps_cons hexec] at h
    rw [List.cons_append, runOps_cons hexec]
    exact ih h

/-! ## After a STOP -/

/-- What a STOP leaves and every operation but START keeps: `running` is clear, and the columns are those of `c`. -/
structure Stopped (c : List (List F64)) (s : State) : Prop where
  inv : Inv s
  running : s.sup.running = false
  cols : s.cols = c

/-- No edge but START's leads to S_RUN (R27). -/
theorem running_clear_of_exec (hinv : Inv s) (hrunning : s.sup.running = false) (hi : i ≠ .start)
    (hexec : exec i s = .next t) : t.sup.running = false := by
  have hedges : ∀ e ∈ supEdges, e.1 ≠ .start → e.2.2 ≠ .run := by decide
  obtain ⟨hmoves, -⟩ := agentsMoveAlongListedEdges i s t hinv hexec
  refine (hinv.exec hexec).running_false ?_
  rcases hmoves with hstays | hedge
  · rw [hstays]
    exact mt hinv.runningIff.2 (Bool.eq_false_iff.1 hrunning)
  · exact hedges _ hedge hi

/-- With `running` clear no column is emitted, by CSTEP, CCOL or a STOP (R282 b, R329). -/
theorem cols_kept_of_exec (hinv : Inv s) (hrunning : s.sup.running = false) (hi : i ≠ .start)
    (hexec : exec i s = .next t) : t.cols = s.cols := by
  obtain ⟨-, -, -, -, hcols⟩ := ownershipOfState i s t hexec
  by_cases hemits : i ∈ [Instr.rbrd, .rbwin, .cstep, .window, .acc, .cchunk, .ccol]
  · have hnot : ¬enabled i s := fun henabled =>
      not_consWorks_of_cancelled (.inr hrunning) (consWorks_of_enabled hemits henabled)
    obtain rfl := Host.Outcome.next.inj ((exec_of_not_enabled hnot).symm.trans hexec)
    rfl
  · exact hcols hi (fun hcstep => hemits (by rw [hcstep]; decide)) (fun hccol => hemits (by rw [hccol]; decide))
      (.inr (hinv.consPart_none_of_cancelled (.inr hrunning)))

theorem Stopped.of_exec (h : Stopped c s) (hi : i ≠ .start) (hexec : exec i s = .next t) : Stopped c t where
  inv := h.inv.exec hexec
  running := running_clear_of_exec h.inv h.running hi hexec
  cols := (cols_kept_of_exec h.inv h.running hi hexec).trans h.cols

theorem Stopped.of_runOps (h : Stopped c s) (hstart : Instr.start ∉ is) : ∃ t, runOps is s = .next t ∧ Stopped c t := by
  induction is generalizing s with
  | nil => exact ⟨s, rfl, h⟩
  | cons i is ih =>
    rw [List.mem_cons, not_or] at hstart
    obtain ⟨u, hexec⟩ := exists_exec i s
    rw [runOps_cons hexec]
    exact ih (h.of_exec (Ne.symm hstart.1) hexec) hstart.2

/-- A STOP finishes what is under way, which may emit a column, and clears `running` (R252, R329). -/
theorem stopped_of_stop (hinv : Inv s) (hexec : exec .stop s = .next t) : Stopped t.cols t := by
  refine ⟨hinv.exec hexec, ?_, rfl⟩
  rcases stepIf_cases _ _ hexec with ⟨-, rfl⟩ | ⟨hnot, rfl⟩
  · rfl
  · exact hinv.running_false hnot

/-! ## The exits and JOIN -/

/-- After PEXIT a cancelled PROD is gone (R209, R253). -/
theorem pexit_exits (hlive : s.prod.pstate ≠ .idle) (hcancel : prodCancelled s) (hexec : exec .pexit s = .next t) :
    t.prod.pstate = .exit := by
  rcases stepIf_cases _ _ hexec with ⟨-, rfl⟩ | ⟨hnot, rfl⟩
  · exact opProdCancel_pstate s
  · cases hstate : t.prod.pstate with
    | idle => exact absurd hstate hlive
    | exit => rfl
    | run => exact absurd ⟨.inl hstate, hcancel⟩ hnot
    | sigWait => exact absurd ⟨.inr (.inl hstate), hcancel⟩ hnot
    | sigWaitLast => exact absurd ⟨.inr (.inr (.inl hstate)), hcancel⟩ hnot
    | sigWaitEnd => exact absurd ⟨.inr (.inr (.inr hstate)), hcancel⟩ hnot

/-- After CEXIT a cancelled CONS is gone, and the rest is as it was (R231, R253). -/
theorem cexit_exits (hlive : s.cons.cstate ≠ .idle) (hcancel : consCancelled s) (hexec : exec .cexit s = .next t) :
    t.cons.cstate = .exit ∧ ConsOnly s t := by
  rcases stepIf_cases _ _ hexec with ⟨-, rfl⟩ | ⟨hnot, rfl⟩
  · exact ⟨opConsCancel_cstate s, consOnly_opConsCancel s⟩
  · refine ⟨?_, .refl t⟩
    cases hstate : t.cons.cstate with
    | idle => exact absurd hstate hlive
    | exit => rfl
    | drain => exact absurd ⟨.inl hstate, hcancel⟩ hnot
    | await => exact absurd ⟨.inr hstate, hcancel⟩ hnot

/-- In S_IDLE no operation but START is enabled (R296). -/
theorem exec_of_idle (hinv : Inv s) (hidle : s.sup.sstate = .idle) (hi : i ≠ .start) : exec i s = .next s :=
  exec_of_not_enabled fun henabled => not_someAgentBusy_of_idle hinv hidle (someAgentBusy_of_enabled hi henabled)

/-- A stopped run that is not joined yet is in S_STOPPING or S_ABORTING. -/
theorem Stopped.sstate_cases (h : Stopped c s) (hlive : s.sup.sstate ≠ .idle) :
    s.sup.sstate = .stopping ∨ s.sup.sstate = .aborting := by
  have hnot : s.sup.sstate ≠ .run := mt h.inv.runningIff.2 (Bool.eq_false_iff.1 h.running)
  cases hstate : s.sup.sstate with
  | idle => exact absurd hstate hlive
  | run => exact absurd hstate hnot
  | stopping => exact .inl rfl
  | aborting => exact .inr rfl

/-- The exits of a stopped run and its JOIN lead to S_IDLE, one agent after the other (R255, R258). -/
theorem runOps_exits (h : Stopped c s) :
    ∃ t, runOps [.pexit, .cexit, .join] s = .next t ∧ t.sup.sstate = .idle := by
  by_cases hidle : s.sup.sstate = .idle
  · have hstays {i : Instr} (hi : i ≠ .start) : exec i s = .next s := exec_of_idle h.inv hidle hi
    exact ⟨s, (runOps_cons (hstays (by decide))).trans ((runOps_cons (hstays (by decide))).trans
      (runOps_single (hstays (by decide)))), hidle⟩
  · obtain ⟨u, hpexit⟩ := exists_exec .pexit s
    obtain ⟨v, hcexit⟩ := exists_exec .cexit u
    have hu : Stopped c u := h.of_exec (by decide) hpexit
    have hlive : u.sup.sstate ≠ .idle := by rw [(execPexit_owned hpexit).1.sup]; exact hidle
    have hprod := pexit_exits (mt h.inv.prodIdle.1 hidle) (.inr h.running) hpexit
    obtain ⟨hcons, honly⟩ := cexit_exits (mt hu.inv.consIdle.1 hlive) (.inr hu.running) hcexit
    have hjoin := exec_join (s := v) (by rw [honly.sup]; exact hu.sstate_cases hlive) (by rw [honly.prod]; exact hprod)
      hcons
    exact ⟨_, (runOps_cons hpexit).trans ((runOps_cons hcexit).trans (runOps_single hjoin)), rfl⟩

/-- Settles O57: what a STOP leaves every further operation keeps, so the exits and JOIN find a stopped run or S_IDLE. -/
theorem stopPathReachesIdle : Obligations.StopPathReachesIdle := by
  intro s ops hinv _ hstart
  obtain ⟨u, hstop⟩ := exists_exec .stop s
  have hu := stopped_of_stop hinv hstop
  obtain ⟨v, hops, hv⟩ := hu.of_runOps hstart
  obtain ⟨t, hexits, hidle⟩ := runOps_exits hv
  have ht : Stopped u.cols t := by
    obtain ⟨t', hruns, ht'⟩ := hv.of_runOps (is := [.pexit, .cexit, .join]) (by decide)
    exact Host.Outcome.next.inj (hruns.symm.trans hexits) ▸ ht'
  have hcarries : Carries s u := (carries_of_exec hstop).resolve_right fun hx => nomatch hx.1
  obtain ⟨-, -, hcols⟩ := execStop_owned hstop
  have htimer : t.sup.timerArmed = false := Bool.eq_false_iff.2 fun harmed => by
    rcases ht.inv.timerIff.1 harmed with hx | hx <;> exact nomatch hidle.symm.trans hx
  exact ⟨u, t, hstop, (runOps_append hops).trans hexits, hidle, ht.inv.prodIdle.2 hidle, ht.inv.consIdle.2 hidle,
    htimer, ht.running, ht.cols, hcarries.cols, hcols⟩

end Sys2Proof.Machine
end

section
/-! PROOFS. The end of a CSTEP under way, part by part (R329): an operation of `consLeft` finds itself not due, or takes
the part that a STOP would take next, so that the end is the same. -/

namespace Sys2Proof.Machine

variable {s t f : State} {i : Instr} {is js : List Instr} {P Q R : State → Prop}

/-! ## Lists of operations from one claim to another -/

/-- From wherever `P` holds the operations lead to where `Q` does. -/
def Leads (is : List Instr) (P Q : State → Prop) : Prop := ∀ s, P s → ∃ t, runOps is s = .next t ∧ Q t

theorem Leads.append (h : Leads is P Q) (h' : Leads js Q R) : Leads (is ++ js) P R := by
  intro s hs
  obtain ⟨t, hruns, ht⟩ := h s hs
  rw [runOps_append hruns]
  exact h' t ht

theorem Leads.cons (h : Leads [i] P Q) (h' : Leads is Q R) : Leads (i :: is) P R := Leads.append h h'

/-- What a list of operations counts down, `n` times the list brings to 0. -/
theorem Leads.timesOps {P : Nat → State → Prop} (h : ∀ n, Leads is (P (n + 1)) (P n)) (n : Nat) :
    Leads (timesOps n is) (P n) (P 0) := by
  induction n with
  | zero => exact fun s hs => ⟨s, rfl, hs⟩
  | succ n ih => exact (h n).append ih

/-- One operation that finds itself not due, or is taken. -/
theorem leads_single (h : ∀ s, P s → ∃ t, exec i s = .next t ∧ Q t) : Leads [i] P Q := by
  intro s hs
  obtain ⟨t, hexec, ht⟩ := h s hs
  exact ⟨t, runOps_single hexec, ht⟩

/-! ## The end of a CSTEP under way -/

theorem opNextParts_succ (n : Nat) (s : State) : opNextParts (n + 1) s = opNextPart (opNextParts n s) := by
  induction n generalizing s with
  | zero => rfl
  | succ n ih => exact ih (opNextPart s)

/-- Taking the next part does not change where the rest leads (R329). -/
theorem opFinishCons_opNextPart (h : Inv s) : opFinishCons (opNextPart s) = opFinishCons s := by
  have hhw : (opNextPart s).hw = s.hw := (consOnly_opNextParts 1 s).hw
  have hpart : (opNextParts (partsBound s.hw) s).cons.part = .none := opNextParts_part h (partsLeft_le s)
  calc opFinishCons (opNextPart s)
      = opNextParts (partsBound s.hw + 1) s := by rw [opFinishCons_eq, hhw]; rfl
    _ = opNextPart (opNextParts (partsBound s.hw) s) := opNextParts_succ _ s
    _ = opFinishCons s := by rw [opNextPart_of_none _ hpart, opFinishCons_eq]

/-- In `s` the parts still due of a CSTEP lead to `f`. -/
structure EndsIn (f s : State) : Prop where
  inv : Inv s
  ends : opFinishCons s = f

/-- The same, and the CSTEP has come as far as `q`. -/
structure UnderWay (f : State) (q : ConsPart) (s : State) : Prop extends EndsIn f s where
  part : s.cons.part = q

theorem EndsIn.eq_of_none (h : EndsIn f s) (hpart : s.cons.part = .none) : s = f :=
  (opFinishCons_of_none s hpart).symm.trans h.ends

theorem EndsIn.hw (h : EndsIn f s) : s.hw = f.hw := h.ends ▸ (consOnly_opFinishCons s).hw.symm

/-- CONS works where a CSTEP is under way. -/
theorem UnderWay.consAt {q : ConsPart} (h : UnderWay f q s) (hq : q ≠ .none) : consAt s q :=
  ⟨(h.inv.consPart (h.part ▸ hq)).1, h.part⟩

/-- The word of the next part takes it, and the end stays the same. -/
theorem EndsIn.takePart (h : EndsIn f s) (p : CstepPart) (hdue : p.due s) (hnext : opNextPart s = p.effect s) :
    exec p.instr s = .next (p.effect s) ∧ EndsIn f (p.effect s) :=
  ⟨exec_of_due hdue, hnext ▸ ⟨h.inv.opNextPart, (opFinishCons_opNextPart h.inv).trans h.ends⟩⟩

/-! ## From the chunk operation's end on (R223, R225, R227) -/

/-- The CSTEP is done, or only its CCOL is left. -/
structure ColumnOrDone (f s : State) : Prop extends EndsIn f s where
  left : s.cons.part = .none ∨ (s.cons.part = .column ∧ s.spectral.divided = false ∧
    (s.spectral.bin = 0 ∨ s.spectral.bin = s.hw.chunk))

/-- The same, or the chunk operation or the count of the chunk is left too. -/
structure ChunkOrLess (f s : State) : Prop extends EndsIn f s where
  left : ColumnOrDone f s ∨ s.cons.part = .chunk ∨ s.cons.part = .accumulated

theorem columnOrDone_opChunkDone (h : EndsIn f (opChunkDone s))
    (hfresh : s.spectral.bin = 0 ∧ s.spectral.divided = false) : ColumnOrDone f (opChunkDone s) := by
  refine ⟨h, ?_⟩
  by_cases hspc : s.cons.cnt = s.sup.spc
  · exact .inr ⟨if_pos hspc, hfresh.2, .inl hfresh.1⟩
  · exact .inl (if_neg hspc)

theorem leads_ccol : Leads [.ccol] (ColumnOrDone f) (· = f) := by
  refine leads_single fun s h => ?_
  rcases h.left with hnone | ⟨hpart, hdivided, hbin⟩
  · have hccol : exec .ccol s = .next s := exec_of_not_enabled fun henabled => nomatch hnone.symm.trans henabled.1.2
    exact ⟨s, hccol, h.eq_of_none hnone⟩
  · have hat : UnderWay f .column s := ⟨h.toEndsIn, hpart⟩
    have hnext : opNextPart s = opCcol s := by simp [opNextPart, hpart, opColumnPart, hdivided, hbin]
    obtain ⟨hexec, hends⟩ := h.takePart .ccol ⟨hat.consAt nofun, hdivided, hbin⟩ hnext
    exact ⟨_, hexec, hends.eq_of_none (opCcol_part s)⟩

theorem leads_cchunk : Leads [.cchunk] (ChunkOrLess f) (ColumnOrDone f) := by
  refine leads_single fun s h => ?_
  rcases h.left with hdone | hpart | hpart
  · refine ⟨s, exec_of_not_enabled fun henabled => ?_, hdone⟩
    have hat : s.cons.part = .chunk ∨ s.cons.part = .accumulated := henabled.imp And.right And.right
    rcases hdone.left with hx | ⟨hx, -⟩ <;> rw [hx] at hat <;> exact hat.elim nofun nofun
  · have hat : UnderWay f .chunk s := ⟨h.toEndsIn, hpart⟩
    obtain ⟨hexec, hends⟩ := h.takePart .cchunk (hat.consAt nofun) (by simp only [opNextPart, hpart]; rfl)
    obtain ⟨hbin, hdivided, -⟩ := opCchunk_kept s
    exact ⟨_, hexec, columnOrDone_opChunkDone hends
      (by rw [hbin, hdivided]; exact h.inv.binOutside (by rw [hpart]; nofun))⟩
  · have hat : UnderWay f .accumulated s := ⟨h.toEndsIn, hpart⟩
    obtain ⟨hexec, hends⟩ := h.takePart .cchunkEnd (hat.consAt nofun) (by simp only [opNextPart, hpart]; rfl)
    exact ⟨_, hexec, columnOrDone_opChunkDone (s := opCountChunk s) hends (h.inv.binOutside (by rw [hpart]; nofun))⟩

theorem leads_chunkEnd : Leads [.cchunk, .ccol] (ChunkOrLess f) (· = f) := leads_cchunk.cons leads_ccol

theorem leads_acc : Leads [.acc, .cchunk, .ccol] (UnderWay f .transformed) (· = f) := by
  refine Leads.cons (leads_single fun s h => ?_) leads_chunkEnd
  obtain ⟨hexec, hends⟩ := h.takePart .acc (h.consAt nofun) (by simp only [opNextPart, h.part]; rfl)
  exact ⟨_, hexec, hends, .inr (.inr rfl)⟩

/-- After the boundary tests at most a chunk and a column operation are due (R222). -/
theorem leads_count : Leads [.cstep, .cchunk, .ccol] (UnderWay f .taken) (· = f) := by
  refine Leads.cons (leads_single fun s h => ?_) leads_chunkEnd
  obtain ⟨hexec, hends⟩ := h.takePart .count (h.consAt nofun) (by simp only [opNextPart, h.part]; rfl)
  obtain ⟨hbin, hdivided⟩ := h.inv.binOutside (by rw [h.part]; nofun)
  refine ⟨_, hexec, hends, ?_⟩
  rcases dueAfterSample_cases s.hw s.sup.spc s.cons.nchunk (s.cons.cnt + 1) with ⟨-, hx⟩ | ⟨-, -, -, hx⟩ | ⟨-, -, hx⟩
  · exact .inr (.inl hx)
  · exact .inl ⟨hends, .inr ⟨hx, hdivided, .inl hbin⟩⟩
  · exact .inl ⟨hends, .inl hx⟩

/-! ## A column some of whose bins are taken (R228) -/

/-- Of a column at least one bin is taken, and no more than `n` are left. -/
structure BinsLeft (f : State) (n : Nat) (s : State) : Prop extends UnderWay f .column s where
  undivided : s.spectral.divided = false
  begun : s.spectral.bin ≠ 0
  left : s.hw.chunk - s.spectral.bin ≤ n

/-- The CABS of the bin that is due, where its CDIVS is taken. -/
theorem UnderWay.takeMagnitude {n : Nat} (h : UnderWay f .column s) (hdivided : s.spectral.divided = true)
    (hn : s.hw.chunk - s.spectral.bin ≤ n + 1) : ∃ t, exec .cabs s = .next t ∧ BinsLeft f n t := by
  obtain ⟨hexec, hends⟩ := h.takePart .magnitude ⟨h.consAt nofun, h.inv.binInside.2 hdivided, hdivided⟩
    (by simp [opNextPart, h.part, opColumnPart, hdivided, CstepPart.effect])
  exact ⟨_, hexec, ⟨hends, h.part⟩, rfl, Nat.succ_ne_zero _, by
    show s.hw.chunk - (s.spectral.bin + 1) ≤ n
    omega⟩

theorem leads_bin (n : Nat) : Leads [.cdivs, .cabs] (BinsLeft f (n + 1)) (BinsLeft f n) := by
  intro s h
  obtain ⟨hle, -⟩ := h.inv.binInside
  by_cases hall : s.spectral.bin = s.hw.chunk
  · have hcdivs : exec .cdivs s = .next s := exec_of_not_enabled fun henabled => henabled.2.1.ne hall
    have hcabs : exec .cabs s = .next s := exec_of_not_enabled fun henabled => henabled.2.1.ne hall
    exact ⟨s, runOps_pair hcdivs hcabs, h.toUnderWay, h.undivided, h.begun,
      by rw [hall, Nat.sub_self]; exact n.zero_le⟩
  · obtain ⟨hexec, hends⟩ := h.takePart .divide ⟨h.consAt nofun, hle.lt_of_ne hall, h.undivided⟩
      (by simp [opNextPart, h.part, opColumnPart, h.undivided, h.begun, hall, CstepPart.effect])
    obtain ⟨t, hcabs, ht⟩ := UnderWay.takeMagnitude (n := n) ⟨hends, h.part⟩ rfl h.left
    exact ⟨t, runOps_pair hexec hcabs, ht⟩

/-- Of a column some CDIVS is taken. -/
structure ColumnBegun (f s : State) : Prop extends UnderWay f .column s where
  begun : ¬(s.spectral.bin = 0 ∧ s.spectral.divided = false)

theorem leads_bins : Leads (.cabs :: timesOps f.hw.chunk [.cdivs, .cabs] ++ [.ccol]) (ColumnBegun f) (· = f) := by
  have hfirst : Leads [.cabs] (ColumnBegun f) (BinsLeft f f.hw.chunk) := by
    refine leads_single fun s h => ?_
    have hle : s.hw.chunk - s.spectral.bin ≤ f.hw.chunk := h.hw ▸ Nat.sub_le _ _
    cases hdivided : s.spectral.divided with
    | true => exact h.takeMagnitude hdivided (hle.trans (Nat.le_succ _))
    | false =>
      have hcabs : exec .cabs s = .next s :=
        exec_of_not_enabled fun henabled => nomatch hdivided.symm.trans henabled.2.2
      exact ⟨s, hcabs, h.toUnderWay, hdivided, fun hzero => h.begun ⟨hzero, hdivided⟩, hle⟩
  have hlast : Leads [.ccol] (BinsLeft f 0) (· = f) := fun s h => by
    have hall : s.spectral.bin = s.hw.chunk :=
      h.inv.binInside.1.antisymm (Nat.sub_eq_zero_iff_le.1 (Nat.le_zero.1 h.left))
    exact leads_ccol s ⟨h.toEndsIn, .inr ⟨h.part, h.undivided, .inr hall⟩⟩
  exact hfirst.cons ((Leads.timesOps leads_bin _).append hlast)

/-! ## An FFT under way (R166, R167) -/

theorem UnderWay.takeFftPart (h : UnderWay f .windowed s) (p : CstepPart) (hdue : p.due s)
    (hnext : opFftPart s = p.effect s) (hcons : (p.effect s).cons = s.cons) :
    exec p.instr s = .next (p.effect s) ∧ UnderWay f .windowed (p.effect s) := by
  obtain ⟨hexec, hends⟩ := h.takePart p hdue (by simp only [opNextPart, h.part]; exact hnext)
  exact ⟨hexec, hends, hcons ▸ h.part⟩

theorem bfliesLeft_pos (h : bflyDue s) : 0 < bfliesLeft s.hw s.fft := by
  obtain ⟨-, -, hroom, hj⟩ := h
  unfold bfliesLeft
  omega

/-- In a pass a butterfly is due, or the pass is done (R166). -/
theorem bflyDue_or_passDone (hinv : Inv s) (hready : s.fft.phase = .ready) :
    bflyDue s ∨ (s.fft.k = s.hw.chunk ∧ bfliesLeft s.hw s.fft = 0) := by
  rcases (hinv.fftReady hready).2 with ⟨hk, -⟩ | hdue
  · exact .inr ⟨hk, by rw [bfliesLeft, hk, Nat.sub_self, Nat.zero_div, Nat.zero_sub]⟩
  · exact .inl hdue

/-- Between two butterflies, of which the pass under way, if any, has at most `n` left. -/
structure BetweenBflies (f : State) (n : Nat) (s : State) : Prop extends UnderWay f .windowed s where
  left : s.fft.phase = .idle ∨ s.fft.phase = .pass ∨ (s.fft.phase = .ready ∧ bfliesLeft s.hw s.fft ≤ n)

/-- Where the advance of the twiddle is due, before which the pass under way has at most `n` butterflies left; or no
butterfly is at work and none is left. -/
structure AtAdvance (f : State) (n : Nat) (s : State) : Prop extends UnderWay f .windowed s where
  left : BetweenBflies f 0 s ∨ (s.fft.phase = .advance ∧ bfliesLeft s.hw s.fft ≤ n)

theorem exec_bfly_of_phase_ne (hready : s.fft.phase ≠ .ready) (hdifference : s.fft.phase ≠ .difference) :
    exec .bfly s = .next s :=
  exec_of_not_enabled fun henabled => henabled.elim (fun hx => hready hx.1.2) fun hx => hdifference hx.2

/-- BFLY, taken whole or ending its parts (R164). -/
theorem UnderWay.leads_bfly {n : Nat} (h : UnderWay f .windowed s) (hproduct : s.fft.phase ≠ .product)
    (hsum : s.fft.phase ≠ .sum)
    (hleft : s.fft.phase ≠ .idle → s.fft.phase ≠ .pass → bfliesLeft s.hw s.fft ≤ n) :
    ∃ t, exec .bfly s = .next t ∧ AtAdvance f n t := by
  have hat := h.consAt nofun
  cases hphase : s.fft.phase with
  | product => exact absurd hphase hproduct
  | sum => exact absurd hphase hsum
  | idle =>
    have hbfly := exec_bfly_of_phase_ne (s := s) (by rw [hphase]; nofun) (by rw [hphase]; nofun)
    exact ⟨s, hbfly, h, .inl ⟨h, .inl hphase⟩⟩
  | pass =>
    have hbfly := exec_bfly_of_phase_ne (s := s) (by rw [hphase]; nofun) (by rw [hphase]; nofun)
    exact ⟨s, hbfly, h, .inl ⟨h, .inr (.inl hphase)⟩⟩
  | advance =>
    have hbfly := exec_bfly_of_phase_ne (s := s) (by rw [hphase]; nofun) (by rw [hphase]; nofun)
    exact ⟨s, hbfly, h, .inr ⟨hphase, hleft (by rw [hphase]; nofun) (by rw [hphase]; nofun)⟩⟩
  | difference =>
    obtain ⟨hexec, ht⟩ := h.takeFftPart .bflyEnd ⟨hat, hphase⟩ (by simp only [opFftPart, hphase]; rfl) rfl
    exact ⟨_, hexec, ht, .inr ⟨rfl, hleft (by rw [hphase]; nofun) (by rw [hphase]; nofun)⟩⟩
  | ready =>
    rcases bflyDue_or_passDone h.inv hphase with hdue | ⟨-, hzero⟩
    · have hk : s.fft.k ≠ s.hw.chunk := by
        obtain ⟨⟨-, htwo, -⟩, -, hroom, -⟩ := hdue
        omega
      obtain ⟨hexec, ht⟩ := h.takeFftPart .bfly ⟨⟨hat, hphase⟩, hdue⟩
        (by simp only [opFftPart, hphase, if_neg hk]; rfl) rfl
      exact ⟨_, hexec, ht, .inr ⟨rfl, hleft (by rw [hphase]; nofun) (by rw [hphase]; nofun)⟩⟩
    · have hbfly : exec .bfly s = .next s := exec_of_not_enabled fun henabled =>
        henabled.elim (fun hx => (bfliesLeft_pos hx.2).ne' hzero) fun hx => nomatch hphase.symm.trans hx.2
      exact ⟨s, hbfly, h, .inl ⟨h, .inr (.inr ⟨hphase, hzero.le⟩)⟩⟩

/-- The CMUL that advances the twiddle; where no butterfly is at work it finds none to begin (R166). -/
theorem leads_advance (n : Nat) : Leads [.cmul] (AtAdvance f (n + 1)) (BetweenBflies f n) := by
  refine leads_single fun s h => ?_
  rcases h.left with hbetween | ⟨hphase, hleft⟩
  · have hcmul : exec .cmul s = .next s := exec_of_not_enabled fun henabled => by
      rcases henabled with ⟨⟨-, hready⟩, hdue⟩ | ⟨-, hadvance⟩
      · rcases hbetween.left with hx | hx | ⟨-, hzero⟩
        · exact nomatch hready.symm.trans hx
        · exact nomatch hready.symm.trans hx
        · exact (bfliesLeft_pos hdue).not_ge hzero
      · rcases hbetween.left with hx | hx | ⟨hx, -⟩ <;> exact nomatch hadvance.symm.trans hx
    exact ⟨s, hcmul, h.toUnderWay, hbetween.left.imp_right fun hx => hx.imp_right fun hy =>
      ⟨hy.1, hy.2.trans n.zero_le⟩⟩
  · have hfewer := bfliesLeft_opAdvance (h.inv.fftInside (by rw [hphase]; decide))
    obtain ⟨hexec, ht⟩ := h.takeFftPart .advance ⟨h.consAt nofun, hphase⟩ (by simp only [opFftPart, hphase]; rfl)
      (by rw [CstepPart.effect, opAdvance_eq])
    refine ⟨_, hexec, ht, .inr (.inr ⟨opAdvance_phase s, ?_⟩)⟩
    rw [(consOnly_part s .advance).hw]
    show bfliesLeft s.hw (opAdvance s).fft ≤ n
    omega

theorem leads_turn (n : Nat) : Leads [.bfly, .cmul] (BetweenBflies f (n + 1)) (BetweenBflies f n) := by
  refine Leads.cons (leads_single fun s h => ?_) (leads_advance n)
  have hphase : s.fft.phase = .idle ∨ s.fft.phase = .pass ∨ s.fft.phase = .ready :=
    h.left.imp_right (.imp_right And.left)
  refine h.leads_bfly ?_ ?_ fun hidle hpass => ((h.left.resolve_left hidle).resolve_left hpass).2
  · rcases hphase with hx | hx | hx <;> rw [hx] <;> nofun
  · rcases hphase with hx | hx | hx <;> rw [hx] <;> nofun

/-- The other parts of the butterfly at work, and its advance (R164, R166). -/
theorem leads_bflyParts :
    Leads [.cadd, .csub, .bfly, .cmul] (UnderWay f .windowed) (BetweenBflies f (f.hw.chunk / 2)) := by
  have hcadd : Leads [.cadd] (UnderWay f .windowed) fun s => UnderWay f .windowed s ∧ s.fft.phase ≠ .product := by
    refine leads_single fun s h => ?_
    by_cases hphase : s.fft.phase = .product
    · obtain ⟨hexec, ht⟩ := h.takeFftPart .sum ⟨h.consAt nofun, hphase⟩ (by simp only [opFftPart, hphase]; rfl) rfl
      exact ⟨_, hexec, ht, nofun⟩
    · exact ⟨s, exec_of_not_enabled (i := .cadd) fun henabled => hphase henabled.2, h, hphase⟩
  have hcsub : Leads [.csub] (fun s => UnderWay f .windowed s ∧ s.fft.phase ≠ .product)
      fun s => UnderWay f .windowed s ∧ s.fft.phase ≠ .product ∧ s.fft.phase ≠ .sum := by
    refine leads_single fun s ⟨h, hproduct⟩ => ?_
    by_cases hphase : s.fft.phase = .sum
    · obtain ⟨hexec, ht⟩ := h.takeFftPart .difference ⟨h.consAt nofun, hphase⟩
        (by simp only [opFftPart, hphase]; rfl) rfl
      exact ⟨_, hexec, ht, nofun, nofun⟩
    · exact ⟨s, exec_of_not_enabled (i := .csub) fun henabled => hphase henabled.2, h, hproduct, hphase⟩
  refine hcadd.cons (hcsub.cons (Leads.cons (leads_single fun s ⟨h, hproduct, hsum⟩ => ?_) (leads_advance _)))
  refine h.leads_bfly hproduct hsum fun _ _ => ?_
  have hle := two_mul_bfliesLeft_le s.hw s.fft
  rw [← h.hw]
  omega

/-- The passes of the FFT under way that are left are at most `n`, and no butterfly is. -/
structure BetweenPasses (f : State) (n : Nat) (s : State) : Prop extends UnderWay f .windowed s where
  left : s.fft.phase = .idle ∨ ((s.fft.phase = .pass ∨ (s.fft.phase = .ready ∧ s.fft.k = s.hw.chunk)) ∧
    passesLeft s.hw s.fft ≤ n)

/-- A pass is left exactly where its length is not beyond the buffer's (R167). -/
theorem passesLeft_eq_zero_iff {p : Params} {x : FftTemps} (hpow : x.l = 2 ^ Nat.log2 x.l) :
    passesLeft p x = 0 ↔ p.chunk < x.l := by
  have hlt : p.chunk < x.l ↔ p.log2Chunk < Nat.log2 x.l := by
    conv_lhs => rw [hpow, chunk_eq]
    exact Nat.pow_lt_pow_iff_right one_lt_two
  rw [hlt, passesLeft]
  omega

theorem leads_pass (n : Nat) : Leads [.bfpass] (BetweenPasses f (n + 1)) (BetweenPasses f n) := by
  refine leads_single fun s h => ?_
  have hat := h.consAt nofun
  rcases h.left with hphase | ⟨hphase | ⟨hphase, hk⟩, hleft⟩
  · have hbfpass : exec .bfpass s = .next s := exec_of_not_enabled fun henabled =>
      henabled.elim (fun hx => nomatch hphase.symm.trans hx.1.2) fun hx => nomatch hphase.symm.trans hx.1.2
    exact ⟨s, hbfpass, h.toUnderWay, .inl hphase⟩
  · obtain ⟨hpow, htwo, -⟩ := h.inv.fftPass hphase
    by_cases hend : s.hw.chunk < s.fft.l
    · have hbfpass : exec .bfpass s = .next s := exec_of_not_enabled fun henabled =>
        henabled.elim (fun hx => hx.2.2.2.not_gt hend) fun hx => nomatch hphase.symm.trans hx.1.2
      exact ⟨s, hbfpass, h.toUnderWay, .inr ⟨.inl hphase, ((passesLeft_eq_zero_iff hpow).2 hend).le.trans n.zero_le⟩⟩
    · have hlegal : passLegal s.hw.chunk s.fft.l := ⟨hpow, htwo, not_lt.1 hend⟩
      have hfewer := passesLeft_opNextPass hlegal
      obtain ⟨hexec, ht⟩ := h.takeFftPart .bfpass ⟨⟨hat, hphase⟩, hlegal⟩
        (by simp only [opFftPart, hphase, if_neg hend]; rfl) rfl
      exact ⟨_, hexec, ht, .inr ⟨.inl rfl, by
        show passesLeft s.hw (opNextPass s).fft ≤ n
        omega⟩⟩
  · have hfewer := passesLeft_opNextPass (h.inv.fftReady hphase).1
    obtain ⟨hexec, ht⟩ := h.takeFftPart .bfpassEnd ⟨⟨hat, hphase⟩, hk⟩
      (by simp only [opFftPart, hphase, if_pos hk]; rfl) rfl
    exact ⟨_, hexec, ht, .inr ⟨.inl rfl, by
      show passesLeft s.hw (opNextPass s).fft ≤ n
      omega⟩⟩

/-- With no butterfly left at most `LOG2CHUNK` passes are. -/
theorem BetweenBflies.passes (h : BetweenBflies f 0 s) : BetweenPasses f f.hw.log2Chunk s := by
  have hle (htwo : 2 ≤ s.fft.l) : passesLeft s.hw s.fft ≤ f.hw.log2Chunk := by
    have hlog : 1 ≤ Nat.log2 s.fft.l := (Nat.le_log2 (by omega)).2 htwo
    rw [← h.hw, passesLeft]
    omega
  rcases h.left with hphase | hphase | ⟨hphase, hzero⟩
  · exact ⟨h.toUnderWay, .inl hphase⟩
  · exact ⟨h.toUnderWay, .inr ⟨.inl hphase, hle (h.inv.fftPass hphase).2.1⟩⟩
  · rcases bflyDue_or_passDone h.inv hphase with hdue | ⟨hk, -⟩
    · exact absurd hzero (bfliesLeft_pos hdue).not_ge
    · exact ⟨h.toUnderWay, .inr ⟨.inr ⟨hphase, hk⟩, hle (h.inv.fftReady hphase).1.2.1⟩⟩

/-- FFT, taken whole or ending its passes (R167). -/
theorem leads_fft : Leads [.fft] (BetweenPasses f 0) (UnderWay f .transformed) := by
  refine leads_single fun s h => ?_
  have hat := h.consAt nofun
  rcases h.left with hphase | ⟨hphase | ⟨hphase, -⟩, hleft⟩
  · obtain ⟨hexec, hends⟩ := h.takePart .fft ⟨hat, hphase⟩ (by simp only [opNextPart, h.part, opFftPart, hphase]; rfl)
    exact ⟨_, hexec, hends, rfl⟩
  · have hend := (passesLeft_eq_zero_iff (h.inv.fftPass hphase).1).1 (Nat.le_zero.1 hleft)
    obtain ⟨hexec, hends⟩ := h.takePart .fftEnd ⟨⟨hat, hphase⟩, hend⟩
      (by simp only [opNextPart, h.part, opFftPart, hphase, if_pos hend]; rfl)
    exact ⟨_, hexec, hends, rfl⟩
  · obtain ⟨hpow, -, hle⟩ := (h.inv.fftReady hphase).1
    exact absurd ((passesLeft_eq_zero_iff hpow).1 (Nat.le_zero.1 hleft)) hle.not_gt

theorem leads_fftLeft : Leads (fftLeft f.hw) (UnderWay f .windowed) (UnderWay f .transformed) := by
  have hturns := leads_bflyParts.append (Leads.timesOps (leads_turn (f := f)) (f.hw.chunk / 2))
  have hpasses : Leads (timesOps f.hw.log2Chunk [.bfpass]) (BetweenBflies f 0) (BetweenPasses f 0) :=
    fun s h => Leads.timesOps leads_pass _ s h.passes
  exact (hturns.append hpasses).append leads_fft

theorem leads_window : Leads [.window] (UnderWay f .gathered) (BetweenPasses f 0) := by
  refine leads_single fun s h => ?_
  obtain ⟨hexec, hends⟩ := h.takePart .window (h.consAt nofun) (by simp only [opNextPart, h.part]; rfl)
  exact ⟨_, hexec, ⟨hends, rfl⟩, .inl rfl⟩

/-! ## The parts of a CSTEP and of a PSTEP that are left (R329) -/

/-- The parts still due of a CSTEP, taken one after the other, do what a STOP does. -/
theorem runOps_consLeft (hinv : Inv s) : runOps (consLeft s) s = .next (opFinishCons s) := by
  suffices h : ∃ t, runOps (consLeft s) s = .next t ∧ t = opFinishCons s by
    obtain ⟨t, hruns, rfl⟩ := h
    exact hruns
  have hends : EndsIn (opFinishCons s) s := ⟨hinv, rfl⟩
  unfold consLeft
  cases hpart : s.cons.part with
  | none => exact ⟨s, rfl, hends.eq_of_none hpart⟩
  | taken => exact leads_count s ⟨hends, hpart⟩
  | chunk => exact leads_chunkEnd s ⟨hends, .inr (.inl hpart)⟩
  | gathered => exact leads_window.cons (leads_fft.cons leads_acc) s ⟨hends, hpart⟩
  | windowed => exact hends.hw ▸ leads_fftLeft.append leads_acc s ⟨hends, hpart⟩
  | transformed => exact leads_acc s ⟨hends, hpart⟩
  | accumulated => exact leads_chunkEnd s ⟨hends, .inr (.inr hpart)⟩
  | column =>
    show ∃ t, runOps (columnLeft s) s = .next t ∧ t = opFinishCons s
    unfold columnLeft
    split
    case isTrue hfresh => exact leads_ccol s ⟨hends, .inr ⟨hpart, hfresh.2, .inl hfresh.1⟩⟩
    case isFalse hbegun => exact hends.hw ▸ leads_bins s ⟨⟨hends, hpart⟩, hbegun⟩

/-- The parts still due of a PSTEP, taken one after the other, do what a STOP does. -/
theorem runOps_prodLeft (hinv : Inv s) : runOps (prodLeft s.prod.part) s = .next (opFinishProd s) := by
  cases hpart : s.prod.part with
  | none => rw [opFinishProd_of_none s hpart]; rfl
  | decoded =>
    have hworks : prodWorks s := (hinv.prodPart (by rw [hpart]; nofun)).1
    have hrbwr : exec .rbwr s = .next ((opRbwr s).prodTo .written) := stepIf_of s _ _ ⟨hworks, hpart⟩
    have hpstep := exec_pstep_written (s := (opRbwr s).prodTo .written) ⟨hworks, rfl⟩
    rw [opFinishProd_of_decoded s hpart, ← opCountFrame_prodTo (opRbwr s) .written]
    exact runOps_pair hrbwr hpstep
  | written =>
    rw [opFinishProd_of_written s hpart]
    exact runOps_single (exec_pstep_written ⟨(hinv.prodPart (by rw [hpart]; nofun)).1, hpart⟩)

/-- Which parts of a CSTEP are left is nothing that PROD writes. -/
theorem consLeft_of_prodOnly (h : ProdOnly s t) : consLeft t = consLeft s := by
  simp only [consLeft, columnLeft, h.cons, h.spectral, h.hw]

theorem runOps_left (hinv : Inv s) : runOps (prodLeft s.prod.part ++ consLeft s) s = .next (opFinish s) := by
  rw [runOps_append (runOps_prodLeft hinv), ← consLeft_of_prodOnly (prodOnly_opFinishProd s)]
  exact runOps_consLeft hinv.opFinishProd

/-! ## STOP -/

theorem exec_stop (hrun : s.sup.sstate = .run) : exec .stop s =
    .next ((opFinish s).setSup { s.sup with running := false, timerArmed := true, sstate := .stopping }) :=
  stepIf_of s _ _ hrun

/-- Settles O49: a STOP finishes what the parts still due would, and outside S_RUN it is not enabled. -/
theorem stopResult : Obligations.StopResult := by
  refine fun s => ⟨fun hrun hprod hcons => ?_, fun hinv hrun => ?_, fun hnot => exec_of_not_enabled fun hrun => ?_⟩
  · rw [exec_stop hrun, opFinish_of_none s hprod hcons]
    rfl
  · obtain ⟨-, hprod, hcons⟩ := hinv.opFinish
    exact ⟨opFinish s, runOps_left hinv, hprod, hcons, exec_stop hrun⟩
  · rcases hnot with hx | hx | hx <;> exact nomatch hx.symm.trans hrun

end Sys2Proof.Machine
end

section
/-! PROOFS. The freeze from STOP on (R282 b, R329): with `running` clear what an operation still does is a record of R271's
table, an EXPIRE or a JOIN, and none of these moves a sample, publishes, or emits a column. -/

namespace Sys2Proof.Machine

variable {s t : State} {i : Instr}

/-- From `s` to `t` no sample moved, nothing was published, no column appeared, and `running` is as it was. -/
structure Frozen (s t : State) : Prop where
  cols : t.cols = s.cols
  ncol : t.cons.ncol = s.cons.ncol
  wr : t.prod.wr = s.prod.wr
  rd : t.cons.rd = s.cons.rd
  hand : t.hand = s.hand
  ring : t.ring = s.ring
  nframes : t.prod.nframes = s.prod.nframes
  src : t.src = s.src
  running : t.sup.running = s.sup.running

theorem Frozen.refl (s : State) : Frozen s s := ⟨rfl, rfl, rfl, rfl, rfl, rfl, rfl, rfl, rfl⟩

/-- Of PROD an event changes the exit code and the state alone (R271). -/
theorem Producer.after_kept (x : Producer) (e : Event) : (x.after e).wr = x.wr ∧ (x.after e).nframes = x.nframes := by
  unfold Producer.after
  split <;> exact ⟨rfl, rfl⟩

/-- Of CONS an event changes the exit code and the state alone (R271). -/
theorem Consumer.after_kept (x : Consumer) (e : Event) : (x.after e).ncol = x.ncol ∧ (x.after e).rd = x.rd := by
  unfold Consumer.after
  split <;> exact ⟨rfl, rfl⟩

theorem frozen_raise (e : Event) (s : State) : Frozen s (raise e s) := by
  obtain ⟨hwr, hnframes⟩ := s.prod.after_kept e
  obtain ⟨hncol, hrd⟩ := s.cons.after_kept e
  exact ⟨rfl, hncol, hwr, hrd, rfl, rfl, hnframes, rfl, rfl⟩

theorem frozen_opProdCancel (s : State) : Frozen s (opProdCancel s) := by
  unfold opProdCancel
  split <;> exact frozen_raise _ s

theorem frozen_opConsCancel (s : State) : Frozen s (opConsCancel s) := by
  unfold opConsCancel
  split <;> exact frozen_raise _ s

/-- With `running` clear neither agent may work or complete a wait, and no CSTEP is under way: what is left of the ways
an operation is taken are the refusals of START, the cancellations, EXPIRE and JOIN. -/
theorem frozen_of_opTaken (hinv : Inv s) (hrunning : s.sup.running = false)
    (hrefused : i ≠ .start ∨ s.sup.sstate ≠ .idle) (htaken : OpTaken s i t) : Frozen s t := by
  have hprod : ¬prodWorks s := not_prodWorks_of_cancelled (.inr hrunning)
  have hcons : ¬consWorks s := not_consWorks_of_cancelled (.inr hrunning)
  cases htaken with
  | busy | configError | openFailure => exact frozen_raise _ s
  | started hidle => exact hrefused.elim (absurd rfl) (absurd hidle)
  | stop hrun => exact absurd (hinv.runningIff.2 hrun) (Bool.eq_false_iff.1 hrunning)
  | expire => exact { frozen_raise .expiry s with running := rfl }
  | join => exact { Frozen.refl s with }
  | rbwr hat | pstepEnd hat => exact absurd hat.1 hprod
  | pfetch hat | pdecode hat | pstep hat | peos hat | pfail hat => exact absurd hat.1.1 hprod
  | pexit | signalCancel => exact frozen_opProdCancel s
  | signalComplete _ hcancel | awaitComplete _ hcancel => exact absurd (.inr hrunning) hcancel
  | awaitCancel | cexit => exact frozen_opConsCancel s
  | awaitEnter hat | rbrd hat | cstep hat => exact absurd hat.1.1 hcons
  | part p hdue => exact absurd (hinv.consPart_none_of_cancelled (.inr hrunning)) (CstepPart.part_of_due hdue)

/-- Settles O56: an operation changes nothing, or is taken in one of the ways that `running` clear leaves open. -/
theorem frozenOnceStopped : Obligations.FrozenOnceStopped := by
  intro i s t hinv hrunning hrefused hexec
  have hfrozen : Frozen s t := by
    rcases exec_cases hexec with rfl | htaken
    · exact .refl t
    · exact frozen_of_opTaken hinv hrunning hrefused htaken
  obtain ⟨hcols, hncol, hwr, hrd, hhand, hring, hnframes, hsrc, hsup⟩ := hfrozen
  exact ⟨hcols, hncol, hwr, hrd, hhand, hring, hnframes, hsrc, hsup.trans hrunning⟩

end Sys2Proof.Machine
end
